-- ==== Sys2Proof/Word.lean ====
section
/-! DEFINITION. The byte of the ring, and the type of a sparse table. -/

namespace Sys2Proof

/-- One byte as the ring carries it (R177). -/
abbrev Byte := BitVec 8

/-- A table keyed by a number, as (key, value) pairs in rising order of key.
A key that is not listed reads as the value the spec gives it after power-on. -/
abbrev Sparse (α : Type) := List (Nat × α)

end Sys2Proof
end

