-- ==== Sys2Proof/Syntax.lean ====
section
/-! DEFINITION. The commands of the block: one constructor of `Instr` for each row of
spec/opcode_table.json, with the row's operands. A command's argument is the number its bytes
spell (10, Commands), so that values out of range reach the checks of the command's own rule. -/

namespace Sys2Proof

/-- A telegram of the store ring (R177): the four header bytes as received, upper bits included,
and the payload. Its payload length byte is the payload's length. -/
structure Telegram where
  dest : Byte
  source : Byte
  kind : Byte
  hop : Byte
  payload : List Byte
  deriving DecidableEq, Repr

/-- The two frame errors of R135. -/
inductive FrameFault where
  /-- A start marker before the telegram begun was complete. -/
  | cutShort
  /-- A payload length above 56. -/
  | tooLong
  deriving DecidableEq, Repr

/-- What started a replan (R44): a replan mark, or a wake-up's collection (R46). -/
inductive ReplanCause where
  | mark
  | wakeUp
  deriving DecidableEq, Repr

/-- One line of an ORDER command: article, quantity, and the rule's byte. -/
structure LineArg where
  article : Nat
  quantity : Nat
  rule : Nat
  deriving DecidableEq, Repr

/-- One record of LOAD-SLOTS (R24): slot index, target state's byte, tag, article, date code. -/
structure SlotArg where
  slot : Nat
  target : Nat
  tag : Nat
  article : Nat
  week : Nat
  year : Nat
  deriving DecidableEq, Repr

/-- The number of a carousel, and so of its Motion Unit and Port Sequencer. -/
abbrev CarouselNo := Fin 8

/-- The steps of the part, named by the rows of spec/opcode_table.json. `src` is the source node of
a COMMAND telegram. -/
inductive Instr where
  -- pins and line
  | resetAsserted
  | powerOn (adr : Nat) (svc : Bool)
  | frameError (cause : FrameFault)
  | telegramReceived (telegram : Telegram) (check : BitVec 16)
  | transmissionComplete
  -- commands
  | badCommandNumber (src : Nat) (payload : List Byte)
  | identify (src : Nat)
  | query (src kind selA selB : Nat)
  | readAuditLog (src : Nat)
  | setCalendar (src week year : Nat)
  | setCalendarBroadcast (src week year : Nat)
  | setNotices (src : Nat) (order lane port motion audit stock : Bool)
  | configureCarousel (src carousel n p : Nat) (bidirectional : Bool) (drive port gate : Nat)
  | setZoneMap (src carousel first : Nat) (zones : List Nat)
  | setTiming (src carousel : Nat) (override : Bool) (value dwell delay bypass : Nat)
  | carouselOnline (src carousel : Nat)
  | carouselOffline (src carousel : Nat)
  | clearFault (src carousel : Nat)
  | reclaim (src carousel : Nat)
  | replanCarousel (src carousel : Nat)
  | jogRequest (src carousel steps direction : Nat)
  | setPort (src carousel : Nat) (autoCall emptyHints : Bool) (display report timeout : Nat)
  | portMode (src carousel mode : Nat)
  | loadSlots (src : Nat) (records : List SlotArg)
  | holdReleaseAccept (src slot : Nat)
  | holdReleaseClear (src slot : Nat)
  | holdReleaseSet (src slot tag article week year : Nat)
  | bankCopy (src : Nat)
  | loadOpen (src table mode : Nat)
  | loadRecord (src count : Nat) (bytes : List Byte)
  | loadClose (src : Nat) (expected : BitVec 32)
  | bankSwitch (src : Nat)
  | order (src id priority chain : Nat) (continues : Bool) (policy limit : Nat) (lines : List LineArg)
  | orderCancel (src id : Nat)
  | shortClose (src id : Nat) (endChain : Bool)
  | setLanes (src node timeout : Nat)
  | laneRelease (src lane : Nat) (force : Bool)
  | laneClearForeign (src lane : Nat)
  | auditSet (src carousel mode : Nat) (zones : BitVec 16) (quota : Nat) (autoCorrect : Bool)
  | restartOps (src : Nat)
  | restartAll (src : Nat)
  -- at the Motion Units
  | position (k : CarouselNo) (carrier : Nat)
  | arrived (k : CarouselNo) (carrier : Nat)
  | driveStatus (k : CarouselNo) (commander fault : Option Nat)
  | foreignMotionTelegram (k : CarouselNo) (source : Nat)
  | returnedMotionTelegram (k : CarouselNo)
  | curtain (k : CarouselNo) (broken : Bool)
  | moveTimerExpiry (k : CarouselNo)
  | resumeDwellExpiry (k : CarouselNo)
  | idleSweepExpiry (k : CarouselNo)
  -- at the Port Sequencers
  | ready (k : CarouselNo)
  | scan (k : CarouselNo) (tag article week year : Nat)
  | placed (k : CarouselNo) (position : Nat)
  | skip (k : CarouselNo)
  | presentationTimerExpiry (k : CarouselNo)
  | returnedDisplay (k : CarouselNo)
  | putawayWithdrawn (k : CarouselNo) (slot : Nat)
  | putawayFoundElsewhere (k : CarouselNo) (slot found : Nat)
  -- at the Planner and the Stock Unit
  | planningStep (order line : Nat)
  | replan (order line : Nat) (cause : ReplanCause)
  | release (slot order line : Nat)
  | wakeUp (article : Nat)
  | waitTimerExpiry (order line : Nat)
  -- at the Lane Unit
  | arrive (lane tag : Nat)
  | transitTimerExpiry (lane entry : Nat)
  | laneEmpty (lane : Nat)
  | returnedLaneOpen (lane : Nat)
  -- at the Audit Unit, the Policy Store and the Stock Unit
  | gate (k : CarouselNo) (carrier : Nat) (tags : List Nat)
  | sessionTimerExpiry
  | pickRequest (k : CarouselNo) (tag order line : Nat)
  | substitutionRequest (k : CarouselNo) (taken given : Nat)
  deriving DecidableEq, Repr

end Sys2Proof
end

