-- ==== Sys2Proof/Config.lean ====
section
/-! DEFINITION. The free values: what the spec leaves unstated, as constants without a body. -/

namespace Sys2Proof.Config

/-- DESIGN CHOICE (log entry 8). R180 gives enumerated values no encoding for 'absent':
the byte sent for one is free. -/
opaque absentEnum : BitVec 8

/-- DESIGN CHOICE (log entry 9). The reply to READ-AUDIT-LOG carries the sequence of the first
entry returned; with no entry returned the two bytes sent there are free. -/
opaque noSequence : BitVec 16

/-- DESIGN CHOICE (log entry 25). R61 leaves direction and steps of a move unreckoned until the
move starts: the steps byte QUERY gives for such a move is free. -/
opaque unreckonedSteps : BitVec 8

/-- DESIGN CHOICE (log entry 53). R176 gives two kinds of symbol: ten bit times that begin low and are neither
are received as nothing, or as a data byte, and which is free. -/
opaque spoiledSymbol : BitVec 10 → Option (BitVec 8)

end Sys2Proof.Config
end

