-- ==== Sys2Proof/Machine/State.lean ====
section
/-! DEFINITION. The state of the CS-2610, block by block, as plain data; its faults and refusals; the
state after reset. A field's initial value is the value its rule gives after power-on. -/

namespace Sys2Proof.Machine

/-! ## The Stock Unit (01) -/

/-- A tyre's full record: tag, article and production ordinal (R1). -/
structure Tyre where
  tag : Nat
  article : Nat
  ordinal : Nat
  deriving DecidableEq, Repr

/-- The article and production ordinal of a record (R1: P is present whenever article is). -/
structure Goods where
  article : Nat
  ordinal : Nat
  deriving DecidableEq, Repr

/-- A hold reason with exactly the fields R2 gives it. -/
inductive Hold where
  | missing (t : Tyre)
  | unexpected (tag : Nat)
  | swapped (t : Tyre)
  | foreign (tag : Nat) (goods : Option Goods)
  | vacated
  | conflict (t : Tyre)
  | loaded (t : Tyre)
  deriving DecidableEq, Repr

/-- A slot state with exactly the fields R2 gives it. -/
inductive Content where
  | empty
  | inbound (t : Tyre)
  | stored (t : Tyre)
  | reserved (t : Tyre) (order line : Nat)
  | held (h : Hold)
  | blocked
  deriving DecidableEq, Repr

/-- A slot record (R1): its state with its fields, and the fresh mark (R4). -/
structure Slot where
  content : Content := .empty
  fresh : Bool := false
  deriving DecidableEq, Repr

/-- The calendar (R9). -/
structure Calendar where
  week : Nat := 1
  year : Nat := 0
  ordinal : Nat := 0
  isSet : Bool := false
  deriving DecidableEq, Repr

/-- The slot table and the calendar. The stock index and the tag index are views of the slot table
(R6, R7). -/
structure Stock where
  slots : Sparse Slot := []
  calendar : Calendar := {}
  deriving DecidableEq, Repr

/-! ## The Planner (02) -/

/-- A line's set rule (R31). -/
inductive SetRule where
  | any
  | matching
  | matchingOrOldest
  deriving DecidableEq, Repr

/-- The policy a line captures (R34). -/
structure Captured where
  window : Nat
  maxAge : Nat
  sameCarousel : Bool
  deriving DecidableEq, Repr

/-- A reserved member of a line: its slot and P (R31). -/
structure Member where
  slot : Nat
  ordinal : Nat
  deriving DecidableEq, Repr

/-- A replan mark, with the carousel it excludes, if any (R43). -/
structure ReplanMark where
  excluded : Option Nat
  deriving DecidableEq, Repr

/-- An order line (R31). Its state, reserved count and remainder follow from these fields (R32). -/
structure Line where
  number : Nat
  article : Nat
  quantity : Nat
  rule : SetRule
  captured : Option Captured := none
  fellBack : Bool := false
  members : List Member := []
  picked : Nat := 0
  extremes : Option (Nat × Nat) := none
  short : Nat := 0
  mark : Option ReplanMark := none
  wait : Option Nat := none
  deriving DecidableEq, Repr

/-- The states of a line, in R31's order. -/
inductive LineState where
  | open
  | reserved
  | waiting
  | done
  | short
  deriving DecidableEq, Repr

/-- The states of an order, in R27's order. -/
inductive OrderState where
  | laneWait
  | queued
  | planning
  | active
  | complete
  | cancelled
  | shortClosed
  deriving DecidableEq, Repr

/-- The shortage policy of an order; HOLD has its limit in minutes (R27). -/
inductive Shortage where
  | shipShort
  | hold (limit : Nat)
  deriving DecidableEq, Repr

/-- An order record (R27). `planned` counts the lines whose first planning step has been taken: the
next one is line `planned + 1` (R30). -/
structure Order where
  id : Nat
  source : Nat
  priority : Nat
  chain : Nat
  continues : Bool
  shortage : Shortage
  state : OrderState
  lane : Option Nat
  lines : List Line
  acceptance : Nat
  unsettled : Nat := 0
  planned : Nat := 0
  deriving DecidableEq, Repr

/-- The order table, by acceptance, and the acceptance count (R27). -/
structure Planner where
  orders : List Order := []
  acceptances : Nat := 0
  deriving DecidableEq, Repr

/-! ## The Motion Units (03) -/

/-- The states of a carousel, in R51's order. -/
inductive CarouselState where
  | offline
  | standing
  | moving
  | interrupted
  | curtainWait
  | fault
  | yielded
  deriving DecidableEq, Repr

/-- The purposes of a move, in R51's order. -/
inductive Purpose where
  | call
  | storeCall
  | sweep
  | jog
  deriving DecidableEq, Repr

/-- The direction of a move. -/
inductive Direction where
  | forward
  | backward
  deriving DecidableEq, Repr

/-- Direction and steps of a move once reckoned (R59). -/
structure Leg where
  direction : Direction
  steps : Nat
  deriving DecidableEq, Repr

/-- The current move (R51). It has no leg while its direction and steps are not reckoned (R61). -/
structure Move where
  purpose : Purpose
  target : Nat
  leg : Option Leg
  deriving DecidableEq, Repr

/-- The fault causes, in R51's order. -/
inductive FaultCause where
  | moveTimeout
  | driveFault
  | driveAbsent
  | positionMismatch
  deriving DecidableEq, Repr

/-- A pick task (R41). -/
structure PickTask where
  order : Nat
  line : Nat
  position : Nat
  lane : Nat
  window : Nat
  deriving DecidableEq, Repr

/-- A stop (R56). -/
structure Stop where
  carrier : Nat
  tasks : List PickTask
  creation : Nat
  bypass : Nat
  deriving DecidableEq, Repr

/-- A carousel record with its stop list and timers (R51, R56, R63). A timer is stopped, or has so
many milliseconds left. -/
structure Carousel where
  state : CarouselState := .offline
  carriers : Nat := 16
  positions : Nat := 1
  bidirectional : Bool := false
  drive : Option Nat := none
  port : Option Nat := none
  gate : Option Nat := none
  atPort : Nat := 0
  move : Option Move := none
  curtainBroken : Bool := false
  estimate : Nat := 1500
  overrideOn : Bool := false
  overrideValue : Nat := 1500
  dwell : Nat := 2000
  sweepDelay : Nat := 60
  bypassLimit : Nat := 6
  cause : Option FaultCause := none
  lastCommander : Option Nat := none
  lastFault : Option Nat := none
  statusSinceFault : Bool := false
  zones : Sparse Nat := []
  stops : List Stop := []
  moveTimer : Option Nat := none
  dwellTimer : Option Nat := none
  sweepTimer : Option Nat := none
  positionsSeen : Nat := 0
  lastPositionAt : Nat := 0
  deriving DecidableEq, Repr

/-- The eight Motion Units and the part-wide creation count (R56). -/
structure Motion where
  carousels : Sparse Carousel := []
  creations : Nat := 0
  deriving DecidableEq, Repr

/-! ## The Port Sequencers (04) -/

/-- The modes of a port, numbered as PORT-MODE numbers them. -/
inductive PortModeName where
  | closed
  | pick
  | store
  deriving DecidableEq, Repr

/-- The underrun displays, in R78's order. -/
inductive UnderrunDisplay where
  | idlePattern
  | dark
  | holdLast
  deriving DecidableEq, Repr

/-- The underrun reports, in R78's order. -/
inductive UnderrunReport where
  | every
  | firstAfterWork
  deriving DecidableEq, Repr

/-- One position indicator (R85). -/
inductive Indicator where
  | dark
  | hold
  | storeHere
  | emptyHint
  | pickPending (lane : Nat)
  | pickDone (lane : Nat)
  deriving DecidableEq, Repr

/-- The messages of a port display, in the order of their bytes (R86). -/
inductive Message where
  | none
  | wait
  | wrongTyre
  | moveInProgress
  | idlePattern
  | storeFull
  | duplicateTag
  deriving DecidableEq, Repr

/-- The content of a port display: eight indicators and a message (R78). -/
structure Display where
  indicators : List Indicator := [.dark, .dark, .dark, .dark, .dark, .dark, .dark, .dark]
  message : Message := .none
  deriving DecidableEq, Repr

/-- A presentation (R78): carrier, tasks, the stop's creation sequence and bypass count, and the done
marks as pairs of position and lane. -/
structure Presentation where
  carrier : Nat
  tasks : List PickTask
  creation : Nat
  bypass : Nat
  done : Sparse Nat := []
  deriving DecidableEq, Repr

/-- The sequencer state with what is present in it: the presentation in PRESENTING, the presented
carrier in PLACING (R78, R96). -/
inductive PortWork where
  | idle
  | calling
  | presenting (p : Presentation)
  | placing (carrier : Nat)
  deriving DecidableEq, Repr

/-- A pending put-away (R78). -/
structure Putaway where
  tyre : Tyre
  slot : Nat
  deriving DecidableEq, Repr

/-- A port record with its presentation timer (R78). -/
structure Port where
  mode : PortModeName := .closed
  pendingMode : Option PortModeName := none
  work : PortWork := .idle
  autoCall : Bool := false
  emptyHints : Bool := false
  underrunDisplay : UnderrunDisplay := .idlePattern
  underrunReport : UnderrunReport := .every
  underrunCount : Nat := 0
  workSinceReport : Bool := true
  strayCount : Nat := 0
  wrongTyreCount : Nat := 0
  timeout : Nat := 120
  putaway : Option Putaway := none
  absent : Bool := false
  display : Display := {}
  timer : Option Nat := none
  deriving DecidableEq, Repr

/-! ## The Lane Unit (05) -/

/-- The lane states, in R101's order. -/
inductive LaneState where
  | free
  | filling
  | ready
  | opening
  deriving DecidableEq, Repr

/-- The states of an expected entry, in R101's order. -/
inductive EntryState where
  | inTransit
  | arrived
  | lost
  | late
  deriving DecidableEq, Repr

/-- An expected entry (R101, R108) with its transit timer and the time of its pick (R109). -/
structure Entry where
  tag : Nat
  order : Nat
  state : EntryState
  timer : Option Nat
  pickedAt : Nat
  deriving DecidableEq, Repr

/-- A lane record (R101). -/
structure Lane where
  state : LaneState := .free
  chain : Nat := 0
  closed : Bool := false
  bound : List Nat := []
  quantity : Nat := 0
  expected : List Entry := []
  foreign : Nat := 0
  deriving DecidableEq, Repr

/-- A waiting chain (R103). -/
structure WaitingChain where
  chain : Nat
  closed : Bool
  members : List Nat
  quantity : Nat
  deriving DecidableEq, Repr

/-- The lane records, the chain wait list and the two settings (R101, R103). -/
structure Lanes where
  lanes : Sparse Lane := []
  waiting : List WaitingChain := []
  conveyor : Option Nat := none
  transitTimeout : Nat := 180
  deriving DecidableEq, Repr

/-! ## The Audit Unit (06) -/

/-- The audit modes, in R117's order. -/
inductive AuditMode where
  | off
  | zoneCycle
  | continuous
  deriving DecidableEq, Repr

/-- An audit record (R117). -/
structure AuditRecord where
  mode : AuditMode := .off
  enabled : BitVec 16 := 0xFFFF#16
  quota : Nat := 2
  autoCorrect : Bool := false
  cursor : Option Nat := none
  streaks : Sparse Nat := []
  counts : Sparse Nat := []
  reports : Nat := 0
  deriving DecidableEq, Repr

/-- The kinds of audit log entry, in R118's order. -/
inductive Finding where
  | missing
  | unexpected
  | swapped
  | foreign
  | corrected
  | displaced
  deriving DecidableEq, Repr

/-- An audit log entry (R118). -/
structure LogEntry where
  sequence : Nat
  slot : Nat
  kind : Finding
  expected : Option Nat
  observed : Option Nat
  other : Option Nat
  deriving DecidableEq, Repr

/-- The audit records, the log, oldest first, and its sequence count (R117, R118). -/
structure Audit where
  records : Sparse AuditRecord := []
  log : List LogEntry := []
  logCount : Nat := 0
  deriving DecidableEq, Repr

/-! ## The Policy Store (08) -/

/-- The dispositions of the traffic table, numbered as a traffic record numbers them. -/
inductive Disposition where
  | pass
  | take
  | observe
  | drop
  deriving DecidableEq, Repr

/-- The put-away strategies (R149). -/
inductive Strategy where
  | nearest
  | grouped
  deriving DecidableEq, Repr

/-- An article record, less its code (R149). -/
structure Article where
  profile : Nat
  zones : BitVec 16
  deriving DecidableEq, Repr

/-- A profile (R149); `refuseAhead` is the date-ahead policy REFUSE. Initially as R150. -/
structure Profile where
  window : Nat := 0
  maxAge : Nat := 0
  substitute : Bool := false
  sameCarousel : Bool := false
  strategy : Strategy := .nearest
  refuseAhead : Bool := false
  deriving DecidableEq, Repr

/-- A policy bank (R149) with the validity of its tables (R151). -/
structure Bank where
  traffic : Sparse Disposition := []
  articles : Sparse Article := []
  profiles : Sparse Profile := []
  trafficValid : Bool
  articleValid : Bool
  profileValid : Bool
  deriving DecidableEq, Repr

/-- The tables of a bank, numbered as LOAD-OPEN numbers them. -/
inductive TableName where
  | traffic
  | article
  | profile
  deriving DecidableEq, Repr

/-- The modes of a load session (R153). -/
inductive LoadMode where
  | replace
  | merge
  deriving DecidableEq, Repr

/-- The two banks. -/
inductive BankName where
  | a
  | b
  deriving DecidableEq, Repr

/-- A load session (R154); `failed` is the failed mark NO-SPACE, and `timer` the milliseconds left. -/
structure Session where
  table : TableName
  mode : LoadMode
  owner : Nat
  check : BitVec 32
  failed : Bool
  count : Nat
  timer : Nat
  deriving DecidableEq, Repr

/-- The Policy Store (R149, R151, R154). -/
structure Policy where
  bankA : Bank := { trafficValid := true, articleValid := true, profileValid := true }
  bankB : Bank := { trafficValid := false, articleValid := false, profileValid := false }
  active : BankName := .a
  session : Option Session := none
  deriving DecidableEq, Repr

/-! ## Notices and replies (09) -/

/-- The notice classes, in the order of the class list of 09. -/
inductive NoticeClass where
  | order
  | lane
  | port
  | motion
  | audit
  | stock
  | system
  deriving DecidableEq, Repr

/-- The causes of ORDER-SHORT, in R33's order. -/
inductive ShortCause where
  | notAvailable
  | unknownArticle
  | waitExpired
  deriving DecidableEq, Repr

/-- The outcomes of a put-away refused, in R95's order. -/
inductive PutawayOutcome where
  | badDate
  | unknownArticle
  | duplicateTag
  | dateAhead
  | noSpace
  | storeFull
  deriving DecidableEq, Repr

/-- The causes of PUTAWAY-ENDED, in R95's order. -/
inductive PutawayCause where
  | refused
  | unavailable
  | callFailed
  | carrierLeft
  | timeout
  | noSlot
  | foundElsewhere
  | absent
  deriving DecidableEq, Repr

/-- The notices, in the order of the notice table of 09, each with the fields its rule names. -/
inductive Notice where
  | orderShort (order source line article short : Nat) (cause : ShortCause)
  | orderComplete (order source acceptance lane picked short fellBack : Nat)
  | transitLost (lane tag order source : Nat)
  | lateArrival (lane tag order seconds : Nat)
  | misrouted (lane tag : Nat) (expected : Option Nat)
  | laneReady (lane chain bound arrived late : Nat)
  | laneEmptied (lane chain arrived late lost inTransit foreign : Nat)
  | laneOpenFailed (lane : Nat) (state : LaneState)
  | portUnderrun (carousel count : Nat)
  | presentationTimeout (carousel carrier tasks creation : Nat)
  | putawayEnded (carousel tag article week year : Nat) (slot : Option Nat) (cause : PutawayCause) (outcome : Option PutawayOutcome)
  | portAbsent (carousel : Nat) (node : Option Nat)
  | carouselFault (carousel : Nat) (cause : FaultCause) (atPort : Nat) (removed : Option (Purpose × Nat))
  | carouselYielded (carousel node : Nat)
  | auditDiscrepancy (carousel : Nat) (entry : LogEntry)
  | auditZoneCertified (carousel zone count carriers : Nat)
  | gateSilent (carousel : Nat) (node : Option Nat)
  | dateAhead (carousel slot tag article week year : Nat)
  | started (address : Nat) (serviceHigh restartAll : Bool)
  | restarted (orders reserved inbound : Nat)
  | commandOverrun (source number : Nat)
  | loadAborted (table : TableName) (mode : LoadMode) (owner count : Nat) (failed : Bool)
  | bankSwitched (bank : BankName) (articles : Nat)
  | overflow (discarded : Nat) (cls : NoticeClass) (kind : Nat)
  deriving DecidableEq, Repr

/-- The reply status words, in the order of the introduction's table. -/
inductive Status where
  | done
  | clamped
  | refusedState
  | badArgument
  | unknownArticle
  | noSpace
  | badCheck
  | notPermitted
  | noSuchRecord
  | foreignMaster
  | tooLarge
  deriving DecidableEq, Repr

/-- A REPLY in the reply queue (R164): destination, command number, status and data. -/
structure Reply where
  dest : Nat
  number : Nat
  status : Status
  data : List Byte
  deriving DecidableEq, Repr

/-- A notice in the notice queue with its sequence (R172). -/
structure QueuedNotice where
  sequence : Nat
  notice : Notice
  deriving DecidableEq, Repr

/-- The enables of the six classes other than SYSTEM (R170). -/
structure Enables where
  order : Bool := true
  lane : Bool := true
  port : Bool := true
  motion : Bool := true
  audit : Bool := true
  stock : Bool := true
  deriving DecidableEq, Repr

/-- An entry of the intake FIFO (R162). -/
structure IntakeEntry where
  source : Nat
  payload : List Byte
  broadcast : Bool
  deriving DecidableEq, Repr

/-- The Command Unit (09). -/
structure CommandUnit where
  intake : List IntakeEntry := []
  enables : Enables := {}
  noticeSequence : Nat := 0
  intakeOverruns : Nat := 0
  noticesLost : Nat := 0
  deriving DecidableEq, Repr

/-! ## The Ring Interface (07) -/

/-- The 40 targets of the field command queue (R143). -/
inductive FieldTarget where
  | drive (k : Nat)
  | port (k : Nat)
  | lane (j : Nat)
  deriving DecidableEq, Repr

/-- The telegrams the part sends to the field, with their payloads (10, Field telegram payloads). -/
inductive FieldCommand where
  | move (target : Nat) (leg : Leg)
  | stop
  | jog (leg : Leg)
  | display (d : Display)
  | laneOpen (lane : Nat)
  deriving DecidableEq, Repr

/-- An entry of the field command queue (R143). -/
structure FieldEntry where
  target : FieldTarget
  command : FieldCommand
  dest : Nat
  deriving DecidableEq, Repr

/-- The four queues the arbiter serves, in the arbiter's order (R145). -/
inductive Source where
  | forward
  | field
  | reply
  | notice
  deriving DecidableEq, Repr

/-- The line counters (R147). -/
structure Counters where
  checkErrors : Nat := 0
  frameErrors : Nat := 0
  hopExpiries : Nat := 0
  forwardOverruns : Nat := 0
  returns : Nat := 0
  guarded : Nat := 0
  discards : Nat := 0
  deriving DecidableEq, Repr

/-- The receiver on RING-IN (R135): waiting for a start marker, or holding a partial telegram. -/
inductive Receiver where
  | waiting
  | assembling (bytes : List Byte)
  deriving DecidableEq, Repr

/-- The Ring Interface (07). `lineBits` are the levels received of the symbol under way, high as true (R176). -/
structure Ring where
  forward : List Telegram := []
  field : List FieldEntry := []
  replies : List Reply := []
  notices : List QueuedNotice := []
  pointer : Source := .forward
  transmitter : Option Telegram := none
  counters : Counters := {}
  receiver : Receiver := .waiting
  lineBits : List Bool := []
  deriving DecidableEq, Repr

/-! ## The whole part -/

/-- The state of the part. `pending` is the model's queue of waiting commands; `handed` holds the
requests blocks have handed to one another and the telegrams delivered to their owners that have
not been taken (R140, R163, R174); `now` is the time base in milliseconds since the last power-on
or RESTART-ALL (R166). -/
structure State where
  pending : List Instr := []
  handed : List Instr := []
  now : Nat := 0
  address : Nat
  serviceHigh : Bool
  resetHeld : Bool := false
  ring : Ring := {}
  command : CommandUnit := {}
  policy : Policy := {}
  stock : Stock := {}
  planner : Planner := {}
  motion : Motion := {}
  ports : Sparse Port := []
  lanes : Lanes := {}
  audit : Audit := {}
  deriving DecidableEq, Repr

/-- Nothing stops the part: every command has an effect in every state. No constructor. -/
inductive Fault where
  deriving DecidableEq, Repr

/-- What the model refuses. -/
inductive Refusal where
  /-- Raised by `exec` alone, for a row of the opcode table whose meaning is not written. No arm raises
  it now. Safe: the model stops where the part goes on. -/
  | notModelled (mnemonic : String)
  deriving DecidableEq, Repr

/-- The part right after RESET is released (R173): every block at its power-on values; the STARTED
notice has joined the notice queue as notice 1 and, the transmitter being idle, left it in the same
event (R145), which moved the pointer from notice to forward. DESIGN CHOICE (log entry 6): the
straps give node address 1 and SVC high. -/
def State.reset : State where
  address := 1
  serviceHigh := true
  ring := { transmitter := some { dest := 0, source := 1, kind := 3, hop := 32,
                                  payload := [0, 1, 6, 19, 1, 0, 0] } }
  command := { noticeSequence := 1 }

end Sys2Proof.Machine
end

