-- ==== Sys2Proof/Machine/Sparse.lean ====
section
/-! DEFINITION. Sparse tables in canonical form: keys strictly rising, and no entry whose value is the
one an unlisted key reads as. -/

namespace Sys2Proof.Machine

/-- The value listed for a key, if any. -/
def sparseFind {α : Type} (k : Nat) : Sparse α → Option α
  | [] => none
  | (j, v) :: rest => if j = k then some v else sparseFind k rest

/-- Read a key: the value listed, or `d`. -/
def sparseGet {α : Type} (d : α) (k : Nat) (m : Sparse α) : α := (sparseFind k m).getD d

/-- List a value for a key at its place, replacing what is listed for it. -/
def sparseInsert {α : Type} (k : Nat) (v : α) : Sparse α → Sparse α
  | [] => [(k, v)]
  | (j, w) :: rest =>
    if k < j then (k, v) :: (j, w) :: rest
    else if j = k then (k, v) :: rest
    else (j, w) :: sparseInsert k v rest

/-- Remove what is listed for a key. -/
def sparseErase {α : Type} (k : Nat) : Sparse α → Sparse α
  | [] => []
  | (j, w) :: rest => if j = k then sparseErase k rest else (j, w) :: sparseErase k rest

/-- Write a key: writing the value an unlisted key reads as removes the entry. -/
def sparseSet {α : Type} [DecidableEq α] (d : α) (k : Nat) (v : α) (m : Sparse α) : Sparse α :=
  if v = d then sparseErase k m else sparseInsert k v m

/-- No entry lists the value `d`. -/
def sparseProper {α : Type} [DecidableEq α] (d : α) : Sparse α → Bool
  | [] => true
  | (_, v) :: rest => (v ≠ d) && sparseProper d rest

/-- The keys are strictly rising. -/
def sparseRising {α : Type} : Sparse α → Bool
  | [] => true
  | (j, _) :: rest => rest.all (fun e => j < e.1) && sparseRising rest

/-- The canonical form of a sparse table whose unlisted keys read as `d`. -/
def sparseCanonical {α : Type} [DecidableEq α] (d : α) (m : Sparse α) : Bool :=
  sparseRising m && sparseProper d m

/-- Change every value listed. -/
def sparseMap {α : Type} (f : α → α) : Sparse α → Sparse α
  | [] => []
  | (j, v) :: rest => (j, f v) :: sparseMap f rest

/-- Insert a number into a list kept in rising order of `key`, after its equals. -/
def insertBy {α : Type} (key : α → Nat) (x : α) : List α → List α
  | [] => [x]
  | y :: rest => if key x < key y then x :: y :: rest else y :: insertBy key x rest

/-- Sort by a key, keeping the order of equals. -/
def sortBy {α : Type} (key : α → Nat) (xs : List α) : List α :=
  xs.foldl (fun acc x => insertBy key x acc) []

/-- A counter that saturates (00, Saturation and clamping). -/
def saturate (limit n : Nat) : Nat := if limit ≤ n then limit else n + 1

/-- Bring a value into a range (00, Saturation and clamping). -/
def clamp (low high n : Nat) : Nat := if n < low then low else if high < n then high else n

end Sys2Proof.Machine
end

