-- ==== Sys2Proof/Machine/Formats.lean ====
section
/-! DEFINITION. The byte layouts of 10_formats_pins_and_ratings: checks, field encodings, telegrams,
notices. Reply data is laid out where the reply is built. -/

namespace Sys2Proof

/-- The low six bits of a header byte (R177). -/
def lowSix (b : Byte) : Nat := b.toNat % 64

end Sys2Proof

namespace Sys2Proof.Machine

/-! ## Numbers and bytes (R177: most significant byte first) -/

def byteOf (n : Nat) : Byte := BitVec.ofNat 8 n
def be1 (n : Nat) : List Byte := [byteOf n]
def be2 (n : Nat) : List Byte := [byteOf (n / 256), byteOf n]
def be3 (n : Nat) : List Byte := [byteOf (n / 65536), byteOf (n / 256), byteOf n]
def be4 (n : Nat) : List Byte := [byteOf (n / 16777216), byteOf (n / 65536), byteOf (n / 256), byteOf n]
def num2 (a b : Byte) : Nat := a.toNat * 256 + b.toNat
def num3 (a b c : Byte) : Nat := num2 a b * 256 + c.toNat
def num4 (a b c d : Byte) : Nat := num3 a b c * 256 + d.toNat

/-- A yes or no: only the least significant bit is read (R180). -/
def flagOf (b : Byte) : Bool := b.toNat % 2 == 1

/-- A yes or no as sent: 0 or 1 (R180). -/
def yesNo (b : Bool) : List Byte := [if b then 1 else 0]

/-- A node address on reception: 64 or more reads as none (R180). -/
def nodeOf (b : Byte) : Option Nat := if b.toNat < 64 then some b.toNat else none

/-- One byte of a type whose absent value is 255: a node, carousel, carrier, lane, zone (R180). -/
def opt1 (o : Option Nat) : List Byte := be1 (o.getD 255)

/-- A slot index or production ordinal, 65,535 when absent (R180). -/
def opt2 (o : Option Nat) : List Byte := be2 (o.getD 65535)

/-- A tag, 0 when absent (R180). -/
def optTag (o : Option Nat) : List Byte := be4 (o.getD 0)

/-- An enumerated value that may be absent (log entry 8). -/
def optEnum (o : Option Nat) : List Byte := [(o.map byteOf).getD Config.absentEnum]

/-! ## The cyclic checks (R178, R179) -/

def crcShift16 (r : BitVec 16) : BitVec 16 := if r.msb then (r <<< 1) ^^^ 0x1021#16 else r <<< 1
def crcShift32 (r : BitVec 32) : BitVec 32 := if r.msb then (r <<< 1) ^^^ 0x04C11DB7#32 else r <<< 1

def crcShifts16 : Nat → BitVec 16 → BitVec 16
  | 0, r => r
  | n + 1, r => crcShifts16 n (crcShift16 r)

def crcShifts32 : Nat → BitVec 32 → BitVec 32
  | 0, r => r
  | n + 1, r => crcShifts32 n (crcShift32 r)

/-- Feed one byte into the 16-bit check register (R179). -/
def crcFeed16 (r : BitVec 16) (b : Byte) : BitVec 16 := crcShifts16 8 (r ^^^ (b.setWidth 16 <<< 8))

/-- Feed one byte into the 32-bit session check register (R179, R156). -/
def crcFeed32 (r : BitVec 32) (b : Byte) : BitVec 32 := crcShifts32 8 (r ^^^ (b.setWidth 32 <<< 24))

/-- The check word over some bytes (R178): the register starts at all ones. -/
def crc16 (bytes : List Byte) : BitVec 16 := bytes.foldl crcFeed16 0xFFFF#16

/-- The session check continued over some bytes (R156). -/
def crc32From (r : BitVec 32) (bytes : List Byte) : BitVec 32 := bytes.foldl crcFeed32 r

end Sys2Proof.Machine

namespace Sys2Proof

/-- Bytes 0 to 4 + L of a telegram (R177). -/
def Telegram.checked (t : Telegram) : List Byte :=
  t.dest :: t.source :: t.kind :: t.hop :: Machine.byteOf t.payload.length :: t.payload

/-- The check word of a telegram (R178). -/
def Telegram.checkWord (t : Telegram) : BitVec 16 := Machine.crc16 t.checked

/-- The bytes of a telegram on the line after its start marker (R177). -/
def Telegram.wire (t : Telegram) : List Byte := t.checked ++ Machine.be2 t.checkWord.toNat

/-- A forwarded telegram as sent: its hop count is one lower in the low six bits, the upper two bits
and everything else as received (R142, R177). -/
def Telegram.forwarded (t : Telegram) : Telegram :=
  { t with hop := Machine.byteOf (t.hop.toNat / 64 * 64 + (lowSix t.hop - 1)) }

end Sys2Proof

namespace Sys2Proof.Machine

/-! ## Kinds (10, Kinds) -/

def kindCommand : Nat := 1
def kindReply : Nat := 2
def kindNotice : Nat := 3
def kindScan : Nat := 8
def kindPlaced : Nat := 9
def kindReady : Nat := 10
def kindSkip : Nat := 11
def kindCurtain : Nat := 12
def kindPosition : Nat := 16
def kindArrived : Nat := 17
def kindDriveStatus : Nat := 18
def kindMove : Nat := 20
def kindStop : Nat := 21
def kindJog : Nat := 22
def kindGate : Nat := 24
def kindDisplay : Nat := 28
def kindArrive : Nat := 32
def kindLaneEmpty : Nat := 33
def kindLaneOpen : Nat := 34

/-- MOVE, STOP or JOG. -/
def isMotionKind (kind : Nat) : Bool := kind == kindMove || kind == kindStop || kind == kindJog

/-! ## Enumerated values (R180: the place, from 0, in the first list that gives the values) -/

def CarouselState.code : CarouselState → Nat
  | .offline => 0 | .standing => 1 | .moving => 2 | .interrupted => 3 | .curtainWait => 4
  | .fault => 5 | .yielded => 6
def Purpose.code : Purpose → Nat
  | .call => 0 | .storeCall => 1 | .sweep => 2 | .jog => 3
def Direction.code : Direction → Nat
  | .forward => 0 | .backward => 1
def FaultCause.code : FaultCause → Nat
  | .moveTimeout => 0 | .driveFault => 1 | .driveAbsent => 2 | .positionMismatch => 3
def PortModeName.code : PortModeName → Nat
  | .closed => 0 | .pick => 1 | .store => 2
def UnderrunDisplay.code : UnderrunDisplay → Nat
  | .idlePattern => 0 | .dark => 1 | .holdLast => 2
def UnderrunReport.code : UnderrunReport → Nat
  | .every => 0 | .firstAfterWork => 1
def PortWork.code : PortWork → Nat
  | .idle => 0 | .calling => 1 | .presenting _ => 2 | .placing _ => 3
def LaneState.code : LaneState → Nat
  | .free => 0 | .filling => 1 | .ready => 2 | .opening => 3
def EntryState.code : EntryState → Nat
  | .inTransit => 0 | .arrived => 1 | .lost => 2 | .late => 3
def AuditMode.code : AuditMode → Nat
  | .off => 0 | .zoneCycle => 1 | .continuous => 2
def Finding.code : Finding → Nat
  | .missing => 0 | .unexpected => 1 | .swapped => 2 | .foreign => 3 | .corrected => 4 | .displaced => 5
def Disposition.code : Disposition → Nat
  | .pass => 0 | .take => 1 | .observe => 2 | .drop => 3
def Strategy.code : Strategy → Nat
  | .nearest => 0 | .grouped => 1
def TableName.code : TableName → Nat
  | .traffic => 0 | .article => 1 | .profile => 2
def LoadMode.code : LoadMode → Nat
  | .replace => 0 | .merge => 1
def BankName.code : BankName → Nat
  | .a => 0 | .b => 1
def SetRule.code : SetRule → Nat
  | .any => 0 | .matching => 1 | .matchingOrOldest => 2
def LineState.code : LineState → Nat
  | .open => 0 | .reserved => 1 | .waiting => 2 | .done => 3 | .short => 4
def OrderState.code : OrderState → Nat
  | .laneWait => 0 | .queued => 1 | .planning => 2 | .active => 3 | .complete => 4 | .cancelled => 5
  | .shortClosed => 6
def NoticeClass.code : NoticeClass → Nat
  | .order => 0 | .lane => 1 | .port => 2 | .motion => 3 | .audit => 4 | .stock => 5 | .system => 6
def ShortCause.code : ShortCause → Nat
  | .notAvailable => 0 | .unknownArticle => 1 | .waitExpired => 2
def PutawayOutcome.code : PutawayOutcome → Nat
  | .badDate => 0 | .unknownArticle => 1 | .duplicateTag => 2 | .dateAhead => 3 | .noSpace => 4
  | .storeFull => 5
def PutawayCause.code : PutawayCause → Nat
  | .refused => 0 | .unavailable => 1 | .callFailed => 2 | .carrierLeft => 3 | .timeout => 4
  | .noSlot => 5 | .foundElsewhere => 6 | .absent => 7
def Status.code : Status → Nat
  | .done => 0 | .clamped => 1 | .refusedState => 2 | .badArgument => 3 | .unknownArticle => 4
  | .noSpace => 5 | .badCheck => 6 | .notPermitted => 7 | .noSuchRecord => 8 | .foreignMaster => 9
  | .tooLarge => 10
def Message.code : Message → Nat
  | .none => 0 | .wait => 1 | .wrongTyre => 2 | .moveInProgress => 3 | .idlePattern => 4
  | .storeFull => 5 | .duplicateTag => 6
/-- The slot states, in R1's order. -/
def Content.code : Content → Nat
  | .empty => 0 | .inbound _ => 1 | .stored _ => 2 | .reserved _ _ _ => 3 | .held _ => 4 | .blocked => 5
/-- The hold reasons, in R1's order. -/
def Hold.code : Hold → Nat
  | .missing _ => 0 | .unexpected _ => 1 | .swapped _ => 2 | .foreign _ _ => 3 | .vacated => 4
  | .conflict _ => 5 | .loaded _ => 6
/-- The service strap, high or low in R166's order (log entry 12). -/
def strapCode (high : Bool) : Nat := if high then 0 else 1

def directionOf? : Nat → Option Direction
  | 0 => some .forward | 1 => some .backward | _ => none
def portModeOf? : Nat → Option PortModeName
  | 0 => some .closed | 1 => some .pick | 2 => some .store | _ => none
def underrunDisplayOf? : Nat → Option UnderrunDisplay
  | 0 => some .idlePattern | 1 => some .dark | 2 => some .holdLast | _ => none
def underrunReportOf? : Nat → Option UnderrunReport
  | 0 => some .every | 1 => some .firstAfterWork | _ => none
def auditModeOf? : Nat → Option AuditMode
  | 0 => some .off | 1 => some .zoneCycle | 2 => some .continuous | _ => none
def dispositionOf? : Nat → Option Disposition
  | 0 => some .pass | 1 => some .take | 2 => some .observe | 3 => some .drop | _ => none
def strategyOf? : Nat → Option Strategy
  | 0 => some .nearest | 1 => some .grouped | _ => none
def tableOf? : Nat → Option TableName
  | 0 => some .traffic | 1 => some .article | 2 => some .profile | _ => none
def loadModeOf? : Nat → Option LoadMode
  | 0 => some .replace | 1 => some .merge | _ => none
def bankOf? : Nat → Option BankName
  | 0 => some .a | 1 => some .b | _ => none
def setRuleOf? : Nat → Option SetRule
  | 0 => some .any | 1 => some .matching | 2 => some .matchingOrOldest | _ => none
/-- The date-ahead policy: ACCEPT 0, REFUSE 1; true is REFUSE. -/
def refuseAheadOf? : Nat → Option Bool
  | 0 => some false | 1 => some true | _ => none

/-! ## Date codes (R8, R1) -/

/-- The production ordinal of a date code (R8). -/
def ordinalOf (week year : Nat) : Nat := year * 53 + (week - 1)
/-- A date code is valid (R8). -/
def dateValid (week year : Nat) : Bool := 1 ≤ week && week ≤ 53 && year ≤ 99
def weekOf (ordinal : Nat) : Nat := ordinal % 53 + 1
def yearOf (ordinal : Nat) : Nat := ordinal / 53
/-- A date code is sent as week then year (R180). -/
def dateBytes (ordinal : Nat) : List Byte := be1 (weekOf ordinal) ++ be1 (yearOf ordinal)

/-! ## Field telegrams (10, Field telegram payloads) -/

def Indicator.byte : Indicator → Byte
  | .dark => 0 | .hold => 1 | .storeHere => 2 | .emptyHint => 3
  | .pickPending lane => byteOf (64 + lane)
  | .pickDone lane => byteOf (128 + lane)

def Display.bytes (d : Display) : List Byte := d.indicators.map Indicator.byte ++ be1 d.message.code

def FieldCommand.kind : FieldCommand → Nat
  | .move _ _ => kindMove | .stop => kindStop | .jog _ => kindJog | .display _ => kindDisplay
  | .laneOpen _ => kindLaneOpen

def FieldCommand.payload : FieldCommand → List Byte
  | .move target leg => be1 target ++ be1 leg.direction.code ++ be1 leg.steps
  | .stop => []
  | .jog leg => be1 leg.steps ++ be1 leg.direction.code
  | .display d => d.bytes
  | .laneOpen lane => be1 lane

/-! ## Notices (R172; 10, Replies and notices) -/

/-- The class of a notice (09, Notices). -/
def Notice.cls : Notice → NoticeClass
  | .orderShort .. | .orderComplete .. => .order
  | .transitLost .. | .lateArrival .. | .misrouted .. | .laneReady .. | .laneEmptied ..
  | .laneOpenFailed .. => .lane
  | .portUnderrun .. | .presentationTimeout .. | .putawayEnded .. | .portAbsent .. => .port
  | .carouselFault .. | .carouselYielded .. => .motion
  | .auditDiscrepancy .. | .auditZoneCertified .. | .gateSilent .. => .audit
  | .dateAhead .. => .stock
  | .started .. | .restarted .. | .commandOverrun .. | .loadAborted .. | .bankSwitched ..
  | .overflow .. => .system

/-- The number of a notice's kind: its place in the notice table, from ORDER-SHORT as 1. -/
def Notice.code : Notice → Nat
  | .orderShort .. => 1 | .orderComplete .. => 2 | .transitLost .. => 3 | .lateArrival .. => 4
  | .misrouted .. => 5 | .laneReady .. => 6 | .laneEmptied .. => 7 | .laneOpenFailed .. => 8
  | .portUnderrun .. => 9 | .presentationTimeout .. => 10 | .putawayEnded .. => 11
  | .portAbsent .. => 12 | .carouselFault .. => 13 | .carouselYielded .. => 14
  | .auditDiscrepancy .. => 15 | .auditZoneCertified .. => 16 | .gateSilent .. => 17
  | .dateAhead .. => 18 | .started .. => 19 | .restarted .. => 20 | .commandOverrun .. => 21
  | .loadAborted .. => 22 | .bankSwitched .. => 23 | .overflow .. => 24

/-- The fields of a notice, in the order its rule names them (R180; log entries 13, 14). -/
def Notice.fields : Notice → List Byte
  | .orderShort order source line article short cause =>
    be2 order ++ be1 source ++ be1 line ++ be3 article ++ be1 short ++ be1 cause.code
  | .orderComplete order source acceptance lane picked short fellBack =>
    be2 order ++ be1 source ++ be2 acceptance ++ be1 lane ++ be1 picked ++ be1 short ++ be1 fellBack
  | .transitLost lane tag order source => be1 lane ++ be4 tag ++ be2 order ++ be1 source
  | .lateArrival lane tag order seconds => be1 lane ++ be4 tag ++ be2 order ++ be2 seconds
  | .misrouted lane tag expected => be1 lane ++ be4 tag ++ opt1 expected
  | .laneReady lane chain bound arrived late =>
    be1 lane ++ be1 chain ++ be1 bound ++ be1 arrived ++ be1 late
  | .laneEmptied lane chain arrived late lost inTransit foreign =>
    be1 lane ++ be1 chain ++ be1 arrived ++ be1 late ++ be1 lost ++ be1 inTransit ++ be1 foreign
  | .laneOpenFailed lane state => be1 lane ++ be1 state.code
  | .portUnderrun carousel count => be1 carousel ++ be2 count
  | .presentationTimeout carousel carrier tasks creation =>
    be1 carousel ++ be1 carrier ++ be1 tasks ++ be2 creation
  | .putawayEnded carousel tag article week year slot cause outcome =>
    be1 carousel ++ be4 tag ++ be3 article ++ be1 week ++ be1 year ++ opt2 slot ++ be1 cause.code
      ++ optEnum (outcome.map PutawayOutcome.code)
  | .portAbsent carousel node => be1 carousel ++ opt1 node
  | .carouselFault carousel cause atPort removed =>
    be1 carousel ++ be1 cause.code ++ be1 atPort ++ optEnum (removed.map (fun m => m.1.code))
      ++ be1 ((removed.map (fun m => m.2)).getD 0)
  | .carouselYielded carousel node => be1 carousel ++ be1 node
  | .auditDiscrepancy carousel e =>
    be1 carousel ++ be2 e.sequence ++ be2 e.slot ++ be1 e.kind.code ++ optTag e.expected
      ++ optTag e.observed ++ opt2 e.other
  | .auditZoneCertified carousel zone count carriers =>
    be1 carousel ++ be1 zone ++ be1 count ++ be1 carriers
  | .gateSilent carousel node => be1 carousel ++ opt1 node
  | .dateAhead carousel slot tag article week year =>
    be1 carousel ++ be2 slot ++ be4 tag ++ be3 article ++ be1 week ++ be1 year
  | .started address high all => be1 address ++ be1 (strapCode high) ++ be1 (if all then 1 else 0)
  | .restarted orders reserved inbound => be1 orders ++ be2 reserved ++ be1 inbound
  | .commandOverrun source number => be1 source ++ be1 number
  | .loadAborted table mode owner count failed =>
    be1 table.code ++ be1 mode.code ++ be1 owner ++ be2 count ++ be1 (if failed then 1 else 0)
  | .bankSwitched bank articles => be1 bank.code ++ be2 articles
  | .overflow discarded cls kind => be1 discarded ++ be1 cls.code ++ be1 kind

def QueuedNotice.payload (q : QueuedNotice) : List Byte :=
  be2 q.sequence ++ be1 q.notice.cls.code ++ be1 q.notice.code ++ q.notice.fields

def Reply.payload (r : Reply) : List Byte := be1 r.number ++ be1 r.status.code ++ r.data

/-- A telegram the part originates (R145, R177): its own node address as source, hop count 32, upper
bits zero. -/
def ownTelegram (address dest kind : Nat) (payload : List Byte) : Telegram where
  dest := byteOf (dest % 64)
  source := byteOf (address % 64)
  kind := byteOf (kind % 64)
  hop := 32
  payload := payload

end Sys2Proof.Machine
end

