-- ==== Sys2Proof/Machine/Operands.lean ====
section
/-! DEFINITION. The operands of commands and field telegrams: reading them from payload bytes, and a
command's payload as the store computer spells it (10, Commands; Field telegram payloads). -/

namespace Sys2Proof.Machine

/-! ## Reading a command payload (R164) -/

/-- A payload read: a command of the table, or one that fails the number or length check of R164 (or
a HOLD-RELEASE whose form names none of its values, log entry 16), with its command number. -/
inductive Parsed where
  | command (c : Instr)
  | bad (number : Nat)
  deriving DecidableEq, Repr

/-- Read so many 12-byte records of LOAD-SLOTS; none when the bytes run out. -/
def parseSlotArgs : Nat → List Byte → Option (List SlotArg)
  | 0, _ => some []
  | n + 1, s1 :: s0 :: tgt :: t3 :: t2 :: t1 :: t0 :: a2 :: a1 :: a0 :: w :: y :: rest =>
    (parseSlotArgs n rest).map (fun more =>
      { slot := num2 s1 s0, target := tgt.toNat, tag := num4 t3 t2 t1 t0, article := num3 a2 a1 a0,
        week := w.toNat, year := y.toNat } :: more)
  | _ + 1, _ => none

/-- Read so many 5-byte lines of ORDER; none when the bytes run out. -/
def parseLineArgs : Nat → List Byte → Option (List LineArg)
  | 0, _ => some []
  | n + 1, a2 :: a1 :: a0 :: q :: r :: rest =>
    (parseLineArgs n rest).map (fun more =>
      { article := num3 a2 a1 a0, quantity := q.toNat, rule := r.toNat } :: more)
  | _ + 1, _ => none

/-- Read so many one-byte values; none when the bytes run out. -/
def parseBytes : Nat → List Byte → Option (List Nat)
  | 0, _ => some []
  | n + 1, b :: rest => (parseBytes n rest).map (fun more => b.toNat :: more)
  | _ + 1, [] => none

/-- Read the arguments of command `number`: none when the number names no command or the arguments
are shorter than its layout needs. Bytes beyond the layout are ignored. -/
def parseArguments (src number : Nat) (args : List Byte) : Option Instr :=
  match number with
  | 1 => some (.identify src)
  | 2 =>
    match args with
    | k :: a3 :: a2 :: a1 :: a0 :: b1 :: b0 :: _ => some (.query src k.toNat (num4 a3 a2 a1 a0) (num2 b1 b0))
    | _ => none
  | 3 => some (.readAuditLog src)
  | 4 =>
    match args with
    | w :: y :: _ => some (.setCalendar src w.toNat y.toNat)
    | _ => none
  | 5 =>
    match args with
    | o :: l :: p :: m :: a :: s :: _ :: _ =>
      some (.setNotices src (flagOf o) (flagOf l) (flagOf p) (flagOf m) (flagOf a) (flagOf s))
    | _ => none
  | 6 =>
    match args with
    | k :: n :: p :: bi :: d :: po :: g :: _ =>
      some (.configureCarousel src k.toNat n.toNat p.toNat (flagOf bi) d.toNat po.toNat g.toNat)
    | _ => none
  | 7 =>
    match args with
    | k :: f :: n :: rest => (parseBytes n.toNat rest).map (.setZoneMap src k.toNat f.toNat)
    | _ => none
  | 8 =>
    match args with
    | k :: oe :: v1 :: v0 :: d1 :: d0 :: s1 :: s0 :: b :: _ =>
      some (.setTiming src k.toNat (flagOf oe) (num2 v1 v0) (num2 d1 d0) (num2 s1 s0) b.toNat)
    | _ => none
  | 9 =>
    match args with
    | k :: _ => some (.carouselOnline src k.toNat)
    | _ => none
  | 10 =>
    match args with
    | k :: _ => some (.carouselOffline src k.toNat)
    | _ => none
  | 11 =>
    match args with
    | k :: _ => some (.clearFault src k.toNat)
    | _ => none
  | 12 =>
    match args with
    | k :: _ => some (.reclaim src k.toNat)
    | _ => none
  | 13 =>
    match args with
    | k :: _ => some (.replanCarousel src k.toNat)
    | _ => none
  | 14 =>
    match args with
    | k :: s :: d :: _ => some (.jogRequest src k.toNat s.toNat d.toNat)
    | _ => none
  | 15 =>
    match args with
    | k :: a :: h :: u :: r :: t1 :: t0 :: _ =>
      some (.setPort src k.toNat (flagOf a) (flagOf h) u.toNat r.toNat (num2 t1 t0))
    | _ => none
  | 16 =>
    match args with
    | k :: m :: _ => some (.portMode src k.toNat m.toNat)
    | _ => none
  | 17 =>
    match args with
    | n :: rest => (parseSlotArgs n.toNat rest).map (.loadSlots src)
    | _ => none
  | 18 =>
    match args with
    | s1 :: s0 :: form :: t3 :: t2 :: t1 :: t0 :: a2 :: a1 :: a0 :: w :: y :: _ =>
      match form.toNat with
      | 0 => some (.holdReleaseAccept src (num2 s1 s0))
      | 1 => some (.holdReleaseClear src (num2 s1 s0))
      | 2 => some (.holdReleaseSet src (num2 s1 s0) (num4 t3 t2 t1 t0) (num3 a2 a1 a0) w.toNat y.toNat)
      | _ => none
    | _ => none
  | 19 => some (.bankCopy src)
  | 20 =>
    match args with
    | t :: m :: _ => some (.loadOpen src t.toNat m.toNat)
    | _ => none
  | 21 =>
    match args with
    | n :: rest => some (.loadRecord src n.toNat rest)
    | _ => none
  | 22 =>
    match args with
    | c3 :: c2 :: c1 :: c0 :: _ => some (.loadClose src (BitVec.ofNat 32 (num4 c3 c2 c1 c0)))
    | _ => none
  | 23 => some (.bankSwitch src)
  | 24 =>
    match args with
    | i1 :: i0 :: pr :: ch :: co :: po :: h1 :: h0 :: n :: rest =>
      (parseLineArgs n.toNat rest).map (.order src (num2 i1 i0) pr.toNat ch.toNat (flagOf co) po.toNat (num2 h1 h0))
    | _ => none
  | 25 =>
    match args with
    | i1 :: i0 :: _ => some (.orderCancel src (num2 i1 i0))
    | _ => none
  | 26 =>
    match args with
    | i1 :: i0 :: e :: _ => some (.shortClose src (num2 i1 i0) (flagOf e))
    | _ => none
  | 27 =>
    match args with
    | n :: t1 :: t0 :: _ => some (.setLanes src n.toNat (num2 t1 t0))
    | _ => none
  | 28 =>
    match args with
    | l :: f :: _ => some (.laneRelease src l.toNat (flagOf f))
    | _ => none
  | 29 =>
    match args with
    | l :: _ => some (.laneClearForeign src l.toNat)
    | _ => none
  | 30 =>
    match args with
    | k :: m :: z1 :: z0 :: q :: a :: _ =>
      some (.auditSet src k.toNat m.toNat (BitVec.ofNat 16 (num2 z1 z0)) q.toNat (flagOf a))
    | _ => none
  | 31 => some (.restartOps src)
  | 32 => some (.restartAll src)
  | _ => none

/-- Read a command payload from source node `src` (R164, checks 1 and 2). -/
def parseCommand (src : Nat) : List Byte → Parsed
  | [] => .bad 0
  | number :: args =>
    match parseArguments src number.toNat args with
    | some c => .command c
    | none => .bad number.toNat

/-! ## Spelling a command payload (10, Commands) -/

def slotArgBytes (r : SlotArg) : List Byte :=
  be2 r.slot ++ be1 r.target ++ be4 r.tag ++ be3 r.article ++ be1 r.week ++ be1 r.year

def lineArgBytes (l : LineArg) : List Byte := be3 l.article ++ be1 l.quantity ++ be1 l.rule

/-- The payload of the COMMAND telegram a command row stands for; empty for the other rows. A field
the command does not read is sent as 0. -/
def commandPayload : Instr → List Byte
  | .badCommandNumber _ payload => payload
  | .identify _ => [1]
  | .query _ kind a b => 2 :: (be1 kind ++ be4 a ++ be2 b)
  | .readAuditLog _ => [3]
  | .setCalendar _ week year => 4 :: (be1 week ++ be1 year)
  | .setCalendarBroadcast _ week year => 4 :: (be1 week ++ be1 year)
  | .setNotices _ o l p m a s =>
    5 :: (yesNo o ++ yesNo l ++ yesNo p ++ yesNo m ++ yesNo a ++ yesNo s ++ yesNo true)
  | .configureCarousel _ k n p bi d po g =>
    6 :: (be1 k ++ be1 n ++ be1 p ++ yesNo bi ++ be1 d ++ be1 po ++ be1 g)
  | .setZoneMap _ k f zones => 7 :: (be1 k ++ be1 f ++ be1 zones.length ++ zones.map byteOf)
  | .setTiming _ k oe v d s b => 8 :: (be1 k ++ yesNo oe ++ be2 v ++ be2 d ++ be2 s ++ be1 b)
  | .carouselOnline _ k => 9 :: be1 k
  | .carouselOffline _ k => 10 :: be1 k
  | .clearFault _ k => 11 :: be1 k
  | .reclaim _ k => 12 :: be1 k
  | .replanCarousel _ k => 13 :: be1 k
  | .jogRequest _ k s d => 14 :: (be1 k ++ be1 s ++ be1 d)
  | .setPort _ k a h u r t => 15 :: (be1 k ++ yesNo a ++ yesNo h ++ be1 u ++ be1 r ++ be2 t)
  | .portMode _ k m => 16 :: (be1 k ++ be1 m)
  | .loadSlots _ records => 17 :: (be1 records.length ++ records.flatMap slotArgBytes)
  | .holdReleaseAccept _ slot => 18 :: (be2 slot ++ be1 0 ++ be4 0 ++ be3 0 ++ be1 0 ++ be1 0)
  | .holdReleaseClear _ slot => 18 :: (be2 slot ++ be1 1 ++ be4 0 ++ be3 0 ++ be1 0 ++ be1 0)
  | .holdReleaseSet _ slot tag article week year =>
    18 :: (be2 slot ++ be1 2 ++ be4 tag ++ be3 article ++ be1 week ++ be1 year)
  | .bankCopy _ => [19]
  | .loadOpen _ t m => 20 :: (be1 t ++ be1 m)
  | .loadRecord _ count bytes => 21 :: (be1 count ++ bytes)
  | .loadClose _ expected => 22 :: be4 expected.toNat
  | .bankSwitch _ => [23]
  | .order _ id pr ch co po limit lines =>
    24 :: (be2 id ++ be1 pr ++ be1 ch ++ yesNo co ++ be1 po ++ be2 limit ++ be1 lines.length
      ++ lines.flatMap lineArgBytes)
  | .orderCancel _ id => 25 :: be2 id
  | .shortClose _ id e => 26 :: (be2 id ++ yesNo e)
  | .setLanes _ n t => 27 :: (be1 n ++ be2 t)
  | .laneRelease _ l f => 28 :: (be1 l ++ yesNo f)
  | .laneClearForeign _ l => 29 :: be1 l
  | .auditSet _ k m z q a => 30 :: (be1 k ++ be1 m ++ be2 z.toNat ++ be1 q ++ yesNo a)
  | .restartOps _ => [31]
  | .restartAll _ => [32]
  | .resetAsserted | .powerOn .. | .frameError .. | .telegramReceived .. | .transmissionComplete
  | .position .. | .arrived .. | .driveStatus .. | .foreignMotionTelegram ..
  | .returnedMotionTelegram .. | .curtain .. | .moveTimerExpiry .. | .resumeDwellExpiry ..
  | .idleSweepExpiry .. | .ready .. | .scan .. | .placed .. | .skip ..
  | .presentationTimerExpiry .. | .returnedDisplay .. | .putawayWithdrawn ..
  | .putawayFoundElsewhere .. | .planningStep .. | .replan .. | .release .. | .wakeUp ..
  | .waitTimerExpiry .. | .arrive .. | .transitTimerExpiry .. | .laneEmpty ..
  | .returnedLaneOpen .. | .gate .. | .sessionTimerExpiry | .pickRequest ..
  | .substitutionRequest .. => []

/-! ## Reading a field telegram's payload (R140) -/

/-- Read so many tags of four bytes; none when the bytes run out. -/
def parseTags : Nat → List Byte → Option (List Nat)
  | 0, _ => some []
  | n + 1, a :: b :: c :: d :: rest => (parseTags n rest).map (fun more => num4 a b c d :: more)
  | _ + 1, _ => none

/-- A drive's telegram as the event at Motion Unit `k` (R140, row 1): none for a kind outside the
row; `some none` when the payload is shorter than its layout. -/
def driveEvent (k : CarouselNo) (kind : Nat) (payload : List Byte) : Option (Option Instr) :=
  if kind = kindPosition then
    some (match payload with | c :: _ => some (.position k c.toNat) | _ => none)
  else if kind = kindArrived then
    some (match payload with | c :: _ => some (.arrived k c.toNat) | _ => none)
  else if kind = kindDriveStatus then
    some (match payload with
      | n :: f :: _ => some (.driveStatus k (nodeOf n) (if f.toNat = 0 then none else some f.toNat))
      | _ => none)
  else none

/-- A port terminal's telegram as the event at Motion Unit or Port Sequencer `k` (R140, rows 2, 3). -/
def portEvent (k : CarouselNo) (kind : Nat) (payload : List Byte) : Option (Option Instr) :=
  if kind = kindCurtain then
    some (match payload with | b :: _ => some (.curtain k (flagOf b)) | _ => none)
  else if kind = kindScan then
    some (match payload with
      | t3 :: t2 :: t1 :: t0 :: a2 :: a1 :: a0 :: w :: y :: _ =>
        some (.scan k (num4 t3 t2 t1 t0) (num3 a2 a1 a0) w.toNat y.toNat)
      | _ => none)
  else if kind = kindPlaced then
    some (match payload with | p :: _ => some (.placed k p.toNat) | _ => none)
  else if kind = kindReady then some (some (.ready k))
  else if kind = kindSkip then some (some (.skip k))
  else none

/-- A gate's telegram as the event at the Audit Unit (R140, row 4). -/
def gateEvent (k : CarouselNo) (kind : Nat) (payload : List Byte) : Option (Option Instr) :=
  if kind = kindGate then
    some (match payload with
      | c :: rest => (parseTags 8 rest).map (.gate k c.toNat)
      | _ => none)
  else none

/-- The conveyor's telegram as the event at the Lane Unit (R140, row 5). -/
def conveyorEvent (kind : Nat) (payload : List Byte) : Option (Option Instr) :=
  if kind = kindArrive then
    some (match payload with
      | l :: t3 :: t2 :: t1 :: t0 :: _ => some (.arrive l.toNat (num4 t3 t2 t1 t0))
      | _ => none)
  else if kind = kindLaneEmpty then
    some (match payload with | l :: _ => some (.laneEmpty l.toNat) | _ => none)
  else none

end Sys2Proof.Machine
end

