-- ==== Sys2Proof/Machine/Ops.lean ====
section
/-! DEFINITION. The shared operations: reading and writing the records of the blocks, handing and
taking events, the output queues and the arbiter, notices and replies, port displays, the idle-sweep
test, and what every event ends with. -/

namespace Sys2Proof.Machine

/-! ## Records of the blocks -/

def State.carousel (s : State) (k : Nat) : Carousel := sparseGet {} k s.motion.carousels
def State.setCarousel (s : State) (k : Nat) (c : Carousel) : State :=
  { s with motion := { s.motion with carousels := sparseSet {} k c s.motion.carousels } }
def State.onCarousel (s : State) (k : Nat) (f : Carousel → Carousel) : State :=
  s.setCarousel k (f (s.carousel k))

def State.port (s : State) (k : Nat) : Port := sparseGet {} k s.ports
def State.setPort (s : State) (k : Nat) (p : Port) : State :=
  { s with ports := sparseSet {} k p s.ports }
def State.onPort (s : State) (k : Nat) (f : Port → Port) : State := s.setPort k (f (s.port k))

def State.lane (s : State) (j : Nat) : Lane := sparseGet {} j s.lanes.lanes
def State.setLane (s : State) (j : Nat) (l : Lane) : State :=
  { s with lanes := { s.lanes with lanes := sparseSet {} j l s.lanes.lanes } }
def State.onLane (s : State) (j : Nat) (f : Lane → Lane) : State := s.setLane j (f (s.lane j))

def State.auditRecord (s : State) (k : Nat) : AuditRecord := sparseGet {} k s.audit.records
def State.setAuditRecord (s : State) (k : Nat) (a : AuditRecord) : State :=
  { s with audit := { s.audit with records := sparseSet {} k a s.audit.records } }
def State.onAudit (s : State) (k : Nat) (f : AuditRecord → AuditRecord) : State :=
  s.setAuditRecord k (f (s.auditRecord k))

def State.slot (s : State) (i : Nat) : Slot := sparseGet {} i s.stock.slots
def State.setSlot (s : State) (i : Nat) (x : Slot) : State :=
  { s with stock := { s.stock with slots := sparseSet {} i x s.stock.slots } }

/-- The eight carousels, and the twenty-four lanes, in order. -/
def carouselNumbers : List Nat := List.range 8
def laneNumbers : List Nat := List.range 24

/-- The zone of a carrier, its pass streak, the discrepancy count of a zone (R51, R117). -/
def Carousel.zone (c : Carousel) (carrier : Nat) : Nat := sparseGet 0 carrier c.zones
def AuditRecord.streak (a : AuditRecord) (carrier : Nat) : Nat := sparseGet 0 carrier a.streaks
def AuditRecord.count (a : AuditRecord) (zone : Nat) : Nat := sparseGet 0 zone a.counts

/-- The active and the shadow bank (R149, R151). -/
def State.activeBank (s : State) : Bank :=
  match s.policy.active with | .a => s.policy.bankA | .b => s.policy.bankB
def State.shadowBank (s : State) : Bank :=
  match s.policy.active with | .a => s.policy.bankB | .b => s.policy.bankA
def State.setShadowBank (s : State) (b : Bank) : State :=
  match s.policy.active with
  | .a => { s with policy := { s.policy with bankB := b } }
  | .b => { s with policy := { s.policy with bankA := b } }

/-- The article's record and its profile in the active bank. -/
def State.article (s : State) (a : Nat) : Option Article := sparseFind a s.activeBank.articles
def State.profile (s : State) (id : Nat) : Profile := sparseGet {} id s.activeBank.profiles

/-! ## Slot indices (00, Numbering; R1) -/

def slotIndex (k carrier position : Nat) : Nat := k * 768 + carrier * 8 + position
def slotCarousel (i : Nat) : Nat := i / 768
def slotCarrier (i : Nat) : Nat := i % 768 / 8
def slotPosition (i : Nat) : Nat := i % 8

/-- A slot is mapped (R1). -/
def State.mapped (s : State) (i : Nat) : Bool :=
  i < 6144 && slotCarrier i < (s.carousel (slotCarousel i)).carriers
    && slotPosition i < (s.carousel (slotCarousel i)).positions

/-! ## Whether the part serves -/

/-- RESET is not held and the part is not in unaddressed mode (R173, R148). -/
def State.serving (s : State) : Bool := !s.resetHeld && s.address != 0 && s.address != 63

/-! ## Handing and taking events (R163, R140; log entries 1 to 3) -/

/-- Hand events, to be taken after those handed before. -/
def State.hand (s : State) (cs : List Instr) : State := { s with handed := s.handed ++ cs }

/-- Hand events, to be taken before those handed before (log entry 21). -/
def State.handFirst (s : State) (cs : List Instr) : State := { s with handed := cs ++ s.handed }

/-- Take an event: where it stands among those handed, its first occurrence leaves. -/
def State.take (s : State) (c : Instr) : State := { s with handed := s.handed.erase c }

/-! ## The field command queue (R143) -/

/-- The destination of a target in the configuration in force. -/
def State.fieldDest (s : State) : FieldTarget → Option Nat
  | .drive k => (s.carousel k).drive
  | .port k => (s.carousel k).port
  | .lane _ => s.lanes.conveyor

/-- Queue: replace the target's entry in place, or join the tail. -/
def fieldJoin (e : FieldEntry) : List FieldEntry → List FieldEntry
  | [] => [e]
  | x :: rest => if x.target = e.target then e :: rest else x :: fieldJoin e rest

/-- A block queues a telegram for a target. A target without a configured node takes none
(log entry 36). -/
def State.queueField (s : State) (target : FieldTarget) (cmd : FieldCommand) : State :=
  match s.fieldDest target with
  | none => s
  | some d => { s with ring := { s.ring with field := fieldJoin ⟨target, cmd, d⟩ s.ring.field } }

/-- A block withdraws a target's entry. -/
def State.withdrawField (s : State) (target : FieldTarget) : State :=
  { s with ring := { s.ring with field := s.ring.field.filter (fun e => e.target ≠ target) } }

/-! ## Notices (R170 to R172) -/

/-- The enable of a class; SYSTEM is always enabled (R170). -/
def Enables.allows (e : Enables) : NoticeClass → Bool
  | .order => e.order | .lane => e.lane | .port => e.port | .motion => e.motion
  | .audit => e.audit | .stock => e.stock | .system => true

def Notice.isOverflow : Notice → Bool
  | .overflow .. => true
  | _ => false

/-- The next notice sequence: one up, from 65,535 back to 1 (R172); likewise the acceptance and audit
log sequences (R27, R118). -/
def nextSequence (n : Nat) : Nat := if n ≥ 65535 then 1 else n + 1

/-- One more notice taken into an OVERFLOW notice's count, which holds at 255 (R171). -/
def QueuedNotice.absorb (q : QueuedNotice) : QueuedNotice :=
  match q.notice with
  | .overflow n c k => { q with notice := .overflow (saturate 255 n) c k }
  | _ => q

/-- Place a notice at the tail with the next sequence. -/
def State.placeNotice (s : State) (n : Notice) : State :=
  { s with
    ring := { s.ring with notices := s.ring.notices ++ [⟨nextSequence s.command.noticeSequence, n⟩] }
    command := { s.command with noticeSequence := nextSequence s.command.noticeSequence } }

/-- The notices-lost counter rises (R171, R169). -/
def State.loseNotice (s : State) : State :=
  { s with command := { s.command with noticesLost := saturate 65535 s.command.noticesLost } }

/-- Produce a notice: its class gates it (R170), and the queue places it, or takes it into an OVERFLOW
notice (R171). -/
def State.notify (s : State) (n : Notice) : State :=
  if !s.command.enables.allows n.cls then s
  else if s.ring.notices.any (fun q => q.notice.isOverflow) then
    { s with ring := { s.ring with notices := s.ring.notices.map QueuedNotice.absorb } }.loseNotice
  else if s.ring.notices.length ≤ 62 then s.placeNotice n
  else (s.placeNotice (.overflow 1 n.cls n.code)).loseNotice

/-! ## Replies (R164) -/

/-- What a command comes to: the state it leaves, the status word and the reply data. -/
structure Answer where
  state : State
  status : Status
  data : List Byte := []
  deriving DecidableEq, Repr

/-- Place a REPLY at the tail of the reply queue (R144). -/
def State.placeReply (s : State) (dest number : Nat) (status : Status) (data : List Byte) : State :=
  { s with ring := { s.ring with replies := s.ring.replies ++ [⟨dest, number, status, data⟩] } }

/-- Place the REPLY a command's answer gives. -/
def Answer.placed (a : Answer) (src number : Nat) : State :=
  a.state.placeReply src number a.status a.data

/-- A refusal: no change, a status word and no data. -/
def State.refuse (s : State) (status : Status) : Answer := ⟨s, status, []⟩

/-! ## The output arbiter (R145) -/

/-- The sources in the arbiter's order, starting at the one named. -/
def Source.fromHere : Source → List Source
  | .forward => [.forward, .field, .reply, .notice]
  | .field => [.field, .reply, .notice, .forward]
  | .reply => [.reply, .notice, .forward, .field]
  | .notice => [.notice, .forward, .field, .reply]

/-- The source after one, wrapping from notice to forward. -/
def Source.after : Source → Source
  | .forward => .field
  | .field => .reply
  | .reply => .notice
  | .notice => .forward

/-- Begin to send the head of a source's queue: it leaves the queue for the transmitter, and the
pointer moves on. None when the queue is empty. -/
def State.sendFrom (s : State) : Source → Option State
  | .forward =>
    match s.ring.forward with
    | [] => none
    | t :: rest => some { s with ring := { s.ring with
        forward := rest, transmitter := some t.forwarded, pointer := .field } }
  | .field =>
    match s.ring.field with
    | [] => none
    | e :: rest => some { s with ring := { s.ring with
        field := rest, pointer := .reply,
        transmitter := some (ownTelegram s.address e.dest e.command.kind e.command.payload) } }
  | .reply =>
    match s.ring.replies with
    | [] => none
    | r :: rest => some { s with ring := { s.ring with
        replies := rest, pointer := .notice,
        transmitter := some (ownTelegram s.address r.dest kindReply r.payload) } }
  | .notice =>
    match s.ring.notices with
    | [] => none
    | q :: rest => some { s with ring := { s.ring with
        notices := rest, pointer := .forward,
        transmitter := some (ownTelegram s.address 0 kindNotice q.payload) } }

/-- Send from the first source of a list that holds a telegram. -/
def State.sendFirst (s : State) : List Source → State
  | [] => s
  | x :: rest =>
    match s.sendFrom x with
    | some s' => s'
    | none => s.sendFirst rest

/-- The arbiter: with the transmitter free, it chooses from the pointer on; with every queue empty
nothing changes. -/
def State.arbitrate (s : State) : State :=
  match s.ring.transmitter with
  | some _ => s
  | none => s.sendFirst s.ring.pointer.fromHere

/-! ## Port displays (R85, R86) -/

/-- The carrier a port presents or places at, if any. -/
def Port.servedCarrier (p : Port) : Option Nat :=
  match p.work with
  | .presenting x => some x.carrier
  | .placing c => some c
  | .idle | .calling => none

/-- The task indicator of R85 for position `x`, if it applies. -/
def Port.taskIndicator (p : Port) (x : Nat) : Option Indicator :=
  match p.work with
  | .presenting pr =>
    match pr.tasks.find? (fun t => t.position = x) with
    | some t => some (.pickPending t.lane)
    | none => (sparseFind x pr.done).map .pickDone
  | .placing _ =>
    match p.putaway with
    | some a => if slotPosition a.slot = x then some .storeHere else none
    | none => none
  | .idle | .calling => none

/-- The indicator of position `x` of the carrier served, by the first of R85's cases. -/
def State.indicatorAt (s : State) (k carrier x : Nat) : Indicator :=
  let p := s.port k
  if (s.carousel k).positions ≤ x then .dark
  else
    match (s.slot (slotIndex k carrier x)).content with
    | .held _ | .blocked => .hold
    | content =>
      match p.taskIndicator x with
      | some i => i
      | none =>
        if content = .empty ∧ p.emptyHints = true ∧ p.mode = .store then .emptyHint else .dark

/-- Rebuild a port's indicators (R85): while it is PRESENTING or PLACING, every position afresh. -/
def State.rebuild (s : State) (k : Nat) : State :=
  match (s.port k).servedCarrier with
  | none => s
  | some c =>
    s.onPort k (fun p => { p with display := { p.display with
      indicators := (List.range 8).map (s.indicatorAt k c) } })

/-- Set a port's message (R86). -/
def State.setMessage (s : State) (k : Nat) (m : Message) : State :=
  s.onPort k (fun p => { p with display := { p.display with message := m } })

/-- All indicators DARK, with a message. -/
def State.darken (s : State) (k : Nat) (m : Message) : State :=
  s.onPort k (fun p => { p with display := { message := m } })

/-- Change a slot record. When its carrier is the one served at its carousel's port, the change is
handed to that port, which rebuilds its display (R5). -/
def State.writeSlot (s : State) (i : Nat) (x : Slot) : State :=
  if (s.port (slotCarousel i)).servedCarrier = some (slotCarrier i) then
    (s.setSlot i x).rebuild (slotCarousel i)
  else s.setSlot i x

/-! ## The idle-sweep test (R74) -/

/-- The conditions under which the idle-sweep timer runs. -/
def State.idleConditions (s : State) (k : Nat) : Bool :=
  let c := s.carousel k
  (s.auditRecord k).mode = .zoneCycle && c.sweepDelay ≠ 0 && c.state = .standing
    && !c.curtainBroken && c.stops.isEmpty && (s.port k).work = .idle

/-- Test the conditions: start the timer if they hold and it is stopped, stop it if they fail. -/
def State.idleTest (s : State) (k : Nat) : State :=
  if s.idleConditions k then
    match (s.carousel k).sweepTimer with
    | some _ => s
    | none => s.onCarousel k (fun c => { c with sweepTimer := some (c.sweepDelay * 1000) })
  else s.onCarousel k (fun c => { c with sweepTimer := none })

/-- The event from `s₀` to `s` touched what the idle-sweep conditions of carousel `k` read. -/
def idleTouched (s₀ s : State) (k : Nat) : Bool :=
  s.carousel k ≠ s₀.carousel k || s.port k ≠ s₀.port k || s.auditRecord k ≠ s₀.auditRecord k

/-- The test for every carousel the event touched (R74: the timer runs while the conditions hold). -/
def State.idleTests (s₀ s : State) : State :=
  carouselNumbers.foldl (fun t k => if idleTouched s₀ t k then t.idleTest k else t) s

/-! ## The end of an event -/

/-- Queue a DISPLAY for port `k` if the event from `s₀` changed its display and the port is not absent
(R86). -/
def State.showDisplay (s₀ s : State) (k : Nat) : State :=
  if (s.port k).display ≠ (s₀.port k).display ∧ (s.port k).absent = false then
    s.queueField (.port k) (.display (s.port k).display)
  else s

/-- Queue the DISPLAYs of the event, in the order of the carousels (log entry 28). -/
def State.showDisplays (s₀ s : State) : State :=
  carouselNumbers.foldl (fun t k => State.showDisplay s₀ t k) s

/-- What every event ends with: the idle-sweep tests, the DISPLAYs and the arbiter's choice (R74, R86,
R145; log entry 7). -/
def State.finish (s₀ s : State) : State := (State.showDisplays s₀ (State.idleTests s₀ s)).arbitrate

/-- One event of the serving part: it has its effect, and ends. While RESET is held, or in unaddressed
mode, it has no effect (R173, R148; log entry 31). -/
def served (effect : State → State) (s : State) : Host.Outcome State Fault Refusal :=
  if s.serving then .next (State.finish s (effect s)) else .next s

/-- An event that may have been handed: it is taken from those handed, and has its effect. -/
def event (c : Instr) (effect : State → State) (s : State) : Host.Outcome State Fault Refusal :=
  served (fun t => effect (t.take c)) s

end Sys2Proof.Machine
end

