-- ==== Sys2Proof/Machine/PolicyWork.lean ====
section
/-! DEFINITION. The Policy Store (08): copying, load sessions and the bank switch (R152 to R159). -/

namespace Sys2Proof.Machine

/-! ## Banks (R149 to R152) -/

/-- The other bank. -/
def BankName.other : BankName → BankName
  | .a => .b
  | .b => .a

/-- The validity of a table. -/
def Bank.valid (b : Bank) : TableName → Bool
  | .traffic => b.trafficValid
  | .article => b.articleValid
  | .profile => b.profileValid

/-- A table's validity set. -/
def Bank.setValid (b : Bank) (v : Bool) : TableName → Bank
  | .traffic => { b with trafficValid := v }
  | .article => { b with articleValid := v }
  | .profile => { b with profileValid := v }

/-- A table given its empty content (R150). -/
def Bank.emptied (b : Bank) : TableName → Bank
  | .traffic => { b with traffic := [] }
  | .article => { b with articles := [] }
  | .profile => { b with profiles := [] }

/-- All three tables are VALID. -/
def Bank.allValid (b : Bank) : Bool := b.trafficValid && b.articleValid && b.profileValid

/-- The codes of the INVALID tables, in order (log entry 15). -/
def Bank.invalidCodes (b : Bank) : List Byte :=
  ([TableName.traffic, .article, .profile].filter (fun t => !b.valid t)).flatMap (fun t => be1 t.code)

/-- The load session replaced. -/
def State.setSession (s : State) (x : Option Session) : State :=
  { s with policy := { s.policy with session := x } }

/-- BANK-COPY (R152). -/
def bankCopyAnswer (s : State) : Answer :=
  match s.policy.session with
  | some _ => s.refuse .refusedState
  | none =>
    ⟨s.setShadowBank { s.activeBank with trafficValid := true, articleValid := true, profileValid := true },
      .done, []⟩

/-! ## Opening a session (R153) -/

/-- The table as a session opens on it: INVALID, and empty under REPLACE (R153). -/
def Bank.opened (b : Bank) (t : TableName) : LoadMode → Bank
  | .replace => (b.setValid false t).emptied t
  | .merge => b.setValid false t

/-- The session timer's length in milliseconds (R158). -/
def sessionTime : Nat := 10000

/-- LOAD-OPEN (R153). -/
def loadOpenAnswer (src table mode : Nat) (s : State) : Answer :=
  match tableOf? table, loadModeOf? mode with
  | some t, some m =>
    match s.policy.session with
    | some _ => s.refuse .refusedState
    | none =>
      ⟨(s.setShadowBank (s.shadowBank.opened t m)).setSession
          (some ⟨t, m, src, 0xFFFFFFFF#32, false, 0, sessionTime⟩), .done,
        be1 s.policy.active.other.code⟩
  | _, _ => s.refuse .badArgument

/-! ## Records (R155, R156) -/

/-- The bytes of one record (10, Load records). -/
def TableName.recordSize : TableName → Nat
  | .traffic => 2
  | .article => 6
  | .profile => 8

/-- A load record read: what it writes, and whether a value was brought into range. -/
inductive LoadItem where
  | traffic (kind : Nat) (d : Disposition)
  | article (code : Nat) (a : Article)
  | profile (id : Nat) (p : Profile) (clamped : Bool)
  deriving DecidableEq, Repr

/-- Read a traffic record; none when a structural value is out of range (R155). -/
def readTraffic (kind d : Byte) : Option LoadItem :=
  if kind.toNat < 64 then (dispositionOf? d.toNat).map (.traffic kind.toNat) else none

/-- Read an article record; none when a structural value is out of range (R155). -/
def readArticle (code profile mask : Nat) : Option LoadItem :=
  if 1 ≤ code ∧ code ≤ 1048575 ∧ profile ≤ 15 then
    some (.article code { profile := profile, zones := BitVec.ofNat 16 mask })
  else none

/-- Read a profile record; none when a structural value is out of range (R155). -/
def readProfile (id window age : Nat) (substitute same : Bool) (strategy ahead : Nat) : Option LoadItem :=
  match strategyOf? strategy, refuseAheadOf? ahead with
  | some st, some r =>
    if id ≤ 15 then
      some (.profile id { window := clamp 0 104 window, maxAge := clamp 0 520 age, substitute := substitute,
                          sameCarousel := same, strategy := st, refuseAhead := r }
        (clamp 0 104 window ≠ window || clamp 0 520 age ≠ age))
    else none
  | _, _ => none

/-- Read one record of a table from its bytes. -/
def readRecord : TableName → List Byte → Option LoadItem
  | .traffic, [k, d] => readTraffic k d
  | .article, [a2, a1, a0, p, z1, z0] => readArticle (num3 a2 a1 a0) p.toNat (num2 z1 z0)
  | .profile, [i, w, g1, g0, s, c, t, d] =>
    readProfile i.toNat w.toNat (num2 g1 g0) (flagOf s) (flagOf c) t.toNat d.toNat
  | _, _ => none

/-- Read so many records: the bytes of each and what it writes; none when the bytes run out or a record
holds a structural value out of range (R155, check 3). -/
def readRecords (t : TableName) : Nat → List Byte → Option (List (List Byte × LoadItem))
  | 0, _ => some []
  | n + 1, bytes =>
    match readRecord t (bytes.take t.recordSize), readRecords t n (bytes.drop t.recordSize) with
    | some item, some more => some ((bytes.take t.recordSize, item) :: more)
    | _, _ => none

/-- Apply a record to a bank; none when the article table is full (R155). -/
def Bank.apply (b : Bank) : LoadItem → Option Bank
  | .traffic kind d => some { b with traffic := sparseSet .pass kind d b.traffic }
  | .profile id p _ => some { b with profiles := sparseSet {} id p b.profiles }
  | .article code a =>
    if (sparseFind code b.articles).isSome || b.articles.length < 1024 then
      some { b with articles := sparseInsert code a b.articles }
    else none

/-- A load under way: the shadow bank, the session, the records applied, whether a value was brought into
range. -/
structure Loading where
  bank : Bank
  session : Session
  applied : Nat := 0
  clamped : Bool := false
  deriving DecidableEq, Repr

/-- The record's value was brought into range. -/
def LoadItem.isClamped : LoadItem → Bool
  | .profile _ _ c => c
  | .traffic _ _ | .article _ _ => false

/-- A record's bytes are fed into the session check and the record count rises (R155, R156). -/
def Session.feed (x : Session) (bytes : List Byte) : Session :=
  { x with check := crc32From x.check bytes, count := saturate 65535 x.count }

/-- Take one record: it is fed into the check, and applied while the failed mark is clear (R155). -/
def Loading.take (l : Loading) (r : List Byte × LoadItem) : Loading :=
  let fed := l.session.feed r.1
  let clamped := l.clamped || r.2.isClamped
  if fed.failed then { l with session := fed, clamped := clamped }
  else
    match l.bank.apply r.2 with
    | some b => ⟨b, fed, l.applied + 1, clamped⟩
    | none => ⟨l.bank, { fed with failed := true }, l.applied, clamped⟩

/-- The reply status of a LOAD-RECORD taken (R155). -/
def Loading.status (l : Loading) : Status :=
  if l.session.failed then .noSpace else if l.clamped then .clamped else .done

/-- LOAD-RECORD (R155). -/
def loadRecordAnswer (src count : Nat) (bytes : List Byte) (s : State) : Answer :=
  match s.policy.session with
  | none => s.refuse .refusedState
  | some x =>
    if src ≠ x.owner then s.refuse .notPermitted
    else
      let y : Session := { x with timer := sessionTime }
      match (if count = 0 ∨ 4 < count then none else readRecords x.table count bytes) with
      | none => (s.setSession (some y)).refuse .badArgument
      | some items =>
        let l := items.foldl Loading.take { bank := s.shadowBank, session := y }
        ⟨(s.setShadowBank l.bank).setSession (some l.session), l.status,
          be1 l.applied ++ be2 l.session.count ++ be4 l.session.check.toNat⟩

/-! ## Closing, aborting, switching (R157 to R159) -/

/-- The outcome of a LOAD-CLOSE (R157). -/
def Session.closeStatus (x : Session) (expected : BitVec 32) : Status :=
  if x.failed then .noSpace else if expected ≠ x.check then .badCheck else .done

/-- LOAD-CLOSE (R157). -/
def loadCloseAnswer (src : Nat) (expected : BitVec 32) (s : State) : Answer :=
  match s.policy.session with
  | none => s.refuse .refusedState
  | some x =>
    if src ≠ x.owner then s.refuse .notPermitted
    else
      let t := s.setSession none
      ⟨if x.closeStatus expected = .done then t.setShadowBank (s.shadowBank.setValid true x.table) else t,
        x.closeStatus expected, be4 x.check.toNat ++ be2 x.count⟩

/-- The session timer expires (R158). -/
def State.sessionExpiry (s : State) : State :=
  match s.policy.session with
  | none => s
  | some x => (s.setSession none).notify (.loadAborted x.table x.mode x.owner x.count x.failed)

/-- BANK-SWITCH (R159). -/
def bankSwitchAnswer (s : State) : Answer :=
  match s.policy.session with
  | some _ => s.refuse .refusedState
  | none =>
    if !s.shadowBank.allValid then ⟨s, .refusedState, s.shadowBank.invalidCodes⟩
    else
      ⟨({ s with policy := { s.policy with active := s.policy.active.other } }).notify
        (.bankSwitched s.policy.active.other s.shadowBank.articles.length), .done, []⟩

end Sys2Proof.Machine
end

