-- ==== Sys2Proof/Machine/Moves.lean ====
section
/-! DEFINITION. Travel, moves, and what a Motion Unit answers to a call (03: R59 to R61, R64). -/

namespace Sys2Proof.Machine

/-! ## Travel (R59) -/

/-- The forward distance from carrier `p` to carrier `c` among `n`. -/
def forwardDistance (n p c : Nat) : Nat := (c + (n - p % n)) % n

/-- The travel to a carrier from the carrier at port. -/
def Carousel.travel (c : Carousel) (target : Nat) : Leg :=
  let df := forwardDistance c.carriers c.atPort target
  let db := (c.carriers - df) % c.carriers
  if c.bidirectional && db < df then ⟨.backward, db⟩ else ⟨.forward, df⟩

/-- The rank of a travel: least steps first, FORWARD before BACKWARD. -/
def Leg.rank (l : Leg) : Nat := l.steps * 2 + l.direction.code

/-! ## Moves (R61, R64) -/

/-- The step time (R63). -/
def Carousel.stepTime (c : Carousel) : Nat := if c.overrideOn then c.overrideValue else c.estimate

/-- The length of the move timer in milliseconds (R64). -/
def Carousel.moveTime (c : Carousel) (steps : Nat) : Nat :=
  min 600000 (steps * c.stepTime * 3 / 2 + 2000)

/-- The telegram that starts a leg: a JOG for a jog, a MOVE otherwise (R61, R67). -/
def motionCommand (purpose : Purpose) (target : Nat) (leg : Leg) : FieldCommand :=
  match purpose with
  | .jog => .jog leg
  | .call | .storeCall | .sweep => .move target leg

/-- Start a move, or start it afresh: the telegram is queued for the drive, the carousel becomes
MOVING, the move timer starts and the sampling of R63 begins again. -/
def State.startLeg (s : State) (k : Nat) (purpose : Purpose) (target : Nat) (leg : Leg) : State :=
  (s.onCarousel k (fun c => { c with
      state := .moving, move := some ⟨purpose, target, some leg⟩,
      moveTimer := some (c.moveTime leg.steps), positionsSeen := 0, lastPositionAt := 0 })).queueField
    (.drive k) (motionCommand purpose target leg)

/-- The current move waits, its direction and steps not reckoned (R61; log entry 25). -/
def State.setWaitingMove (s : State) (k : Nat) (purpose : Purpose) (target : Nat) : State :=
  s.onCarousel k (fun c => { c with move := some ⟨purpose, target, none⟩ })

/-- Direction and steps of a fresh move: a SWEEP goes N steps FORWARD, any other by R59. -/
def Carousel.freshLeg (c : Carousel) (purpose : Purpose) (target : Nat) : Leg :=
  match purpose with
  | .sweep => ⟨.forward, c.carriers⟩
  | .call | .storeCall | .jog => c.travel target

/-- The current move is a SWEEP. -/
def Carousel.sweeping (c : Carousel) : Bool :=
  match c.move with
  | some m => m.purpose = .sweep
  | none => false

/-- A move request with a leg of its own (a JOG's) or by R59 (R61). In a state that R61 does not
name it changes nothing; no requester makes one there. -/
def State.moveRequest (s : State) (k : Nat) (purpose : Purpose) (target : Nat) (leg : Leg) : State :=
  let c := s.carousel k
  match c.state with
  | .standing =>
    if c.curtainBroken then
      (s.setWaitingMove k purpose target).onCarousel k (fun c => { c with state := .curtainWait })
    else s.startLeg k purpose target leg
  | .moving => if c.sweeping then s.startLeg k purpose target leg else s
  | .interrupted | .curtainWait => if c.sweeping then s.setWaitingMove k purpose target else s
  | .offline | .fault | .yielded => s

/-! ## Calls (R60) -/

/-- What the carousel state says to a call. -/
inductive Availability where
  | unavailable
  | busy
  | ready
  deriving DecidableEq, Repr

def Carousel.availability (c : Carousel) : Availability :=
  match c.state with
  | .offline | .fault | .yielded => .unavailable
  | .standing => .ready
  | .moving | .interrupted | .curtainWait => if c.sweeping then .ready else .busy

/-- The stop of least travel, then reached FORWARD, then earliest. -/
def nearestStop (c : Carousel) : List Stop → Option Stop
  | [] => none
  | x :: rest =>
    match nearestStop c rest with
    | none => some x
    | some y => if (c.travel y.carrier).rank < (c.travel x.carrier).rank then some y else some x

/-- The choice of a stop (R60): the earliest that has reached the bypass limit, else the nearest. -/
def Carousel.chooseStop (c : Carousel) : Option Stop :=
  match c.stops.find? (fun x => 0 < c.bypassLimit && c.bypassLimit ≤ x.bypass) with
  | some x => some x
  | none => nearestStop c c.stops

/-- Every stop not chosen gains one on its bypass count, holding at 15. -/
def passOver (chosen : Stop) (stops : List Stop) : List Stop :=
  stops.map (fun x => if x.carrier = chosen.carrier then x else { x with bypass := saturate 15 x.bypass })

/-- The answers to a call or store call. -/
inductive CallAnswer where
  | unavailable
  | busy
  | underrun
  /-- The carrier is at the port; for a call, with the stop handed to the port. -/
  | atPort (stop : Option Stop)
  | called
  deriving DecidableEq, Repr

/-- A call request (R60). -/
def State.callRequest (s : State) (k : Nat) : State × CallAnswer :=
  let c := s.carousel k
  match c.availability with
  | .unavailable => (s, .unavailable)
  | .busy => (s, .busy)
  | .ready =>
    match c.chooseStop with
    | none => (s, .underrun)
    | some x =>
      let passed := s.onCarousel k (fun c => { c with stops := passOver x c.stops })
      if c.state = .standing ∧ x.carrier = c.atPort then
        (passed.onCarousel k (fun c => { c with
          stops := c.stops.filter (fun y => y.carrier ≠ x.carrier) }), .atPort (some x))
      else (passed.moveRequest k .call x.carrier (c.travel x.carrier), .called)

/-- A store-call request for a carrier (R60). -/
def State.storeCallRequest (s : State) (k carrier : Nat) : State × CallAnswer :=
  let c := s.carousel k
  match c.availability with
  | .unavailable => (s, .unavailable)
  | .busy => (s, .busy)
  | .ready =>
    if c.state = .standing ∧ carrier = c.atPort then (s, .atPort none)
    else (s.moveRequest k .storeCall carrier (c.travel carrier), .called)

end Sys2Proof.Machine
end

