-- ==== Sys2Proof/Machine/Presenting.lean ====
section
/-! DEFINITION. Calls, presentations and the return to IDLE at a Port Sequencer, and the tasks and
stops that join and leave (04: R81 to R84, R88, R92; 03: R56 to R58). -/

namespace Sys2Proof.Machine

/-! ## Presentations and calls -/

/-- A presentation starts with a stop (R88). -/
def State.startPresentation (s : State) (k : Nat) (x : Stop) : State :=
  (s.onPort k (fun p => { p with
      work := .presenting { carrier := x.carrier, tasks := x.tasks, creation := x.creation, bypass := x.bypass },
      workSinceReport := true, timer := some (p.timeout * 1000),
      display := { p.display with message := .none } })).rebuild k

/-- Whether an underrun produces its notice (R84). -/
def Port.reportsUnderrun (p : Port) : Bool :=
  match p.underrunReport with
  | .every => true
  | .firstAfterWork => p.workSinceReport

/-- A call answered UNDERRUN (R84). -/
def State.underrun (s : State) (k : Nat) : State :=
  let counted := s.onPort k (fun p => { p with
    underrunCount := saturate 65535 p.underrunCount,
    workSinceReport := (match p.underrunReport with | .every => p.workSinceReport | .firstAfterWork => false) })
  let shown :=
    match (s.port k).underrunDisplay with
    | .idlePattern => counted.darken k .idlePattern
    | .dark => counted.darken k .none
    | .holdLast => counted
  if (s.port k).reportsUnderrun then shown.notify (.portUnderrun k (shown.port k).underrunCount) else shown

/-- A call (R82, R83): made when the port is IDLE in PICK mode. -/
def State.makeCall (s : State) (k : Nat) : State :=
  if (s.port k).work = .idle ∧ (s.port k).mode = .pick then
    let r := s.callRequest k
    match r.2 with
    | .unavailable | .busy => r.1
    | .underrun => r.1.underrun k
    | .atPort (some x) => r.1.startPresentation k x
    | .atPort none => r.1
    | .called => r.1.onPort k (fun p => { p with work := .calling })
  else s

/-- A report of the Motion Unit that makes an auto-call port call (R82; log entry 19): its stop list has
become non-empty, or the carousel has become STANDING; and the port's own turns to a call under auto-call. -/
def State.autoCall (s : State) (k : Nat) : State :=
  if (s.port k).autoCall then s.makeCall k else s

/-- The return to IDLE (R81): the pending mode takes effect, then auto-call. The idle-sweep test is
made at the end of the event (`State.finish`). -/
def State.toIdle (s : State) (k : Nat) : State :=
  let p := s.port k
  let idle :=
    match p.pendingMode with
    | none => s.onPort k (fun p => { p with work := .idle })
    | some m =>
      let t := s.onPort k (fun p => { p with work := .idle, mode := m, pendingMode := none })
      if m = p.mode then t else t.darken k .none
  idle.autoCall k

/-- A presentation completes (R92). -/
def State.completePresentation (s : State) (k : Nat) : State :=
  (s.onPort k (fun p => { p with timer := none })).toIdle k

/-! ## Tasks and stops (R56 to R58) -/

/-- A stop of creation sequence `a` is earlier than one of `b` (R56). -/
def earlier (a b : Nat) : Bool :=
  1 ≤ (b + 65536 - a) % 65536 && (b + 65536 - a) % 65536 ≤ 32767

/-- A stop placed before the first that is not earlier than it, or at the tail (R56). -/
def insertStop (x : Stop) : List Stop → List Stop
  | [] => [x]
  | y :: rest => if earlier y.creation x.creation then y :: insertStop x rest else x :: y :: rest

/-- A task added to a task list, kept in position order. -/
def addTask (t : PickTask) (ts : List PickTask) : List PickTask := insertBy PickTask.position t ts

/-- A task joins the presentation (R57, R88). -/
def State.joinPresentation (s : State) (k : Nat) (pr : Presentation) (t : PickTask) : State :=
  (s.onPort k (fun p => { p with work := .presenting { pr with tasks := addTask t pr.tasks } })).rebuild k

/-- A task joins the stop list: the stop for its carrier, or a new stop at the tail (R57). -/
def State.joinStops (s : State) (k carrier : Nat) (t : PickTask) : State :=
  let c := s.carousel k
  if c.stops.any (fun x => x.carrier = carrier) then
    s.onCarousel k (fun c => { c with stops := c.stops.map (fun x =>
      if x.carrier = carrier then { x with tasks := addTask t x.tasks } else x) })
  else
    let created := s.onCarousel k (fun c => { c with
      stops := c.stops ++ [{ carrier := carrier, tasks := [t], creation := s.motion.creations, bypass := 0 }] })
    let counted := { created with motion := { created.motion with
      creations := (created.motion.creations + 1) % 65536 } }
    if c.stops.isEmpty then counted.autoCall k else counted

/-- A task reaches the Motion Unit (R57). -/
def State.placeTask (s : State) (k carrier : Nat) (t : PickTask) : State :=
  match (s.port k).work with
  | .presenting pr =>
    if pr.carrier = carrier ∧ (s.port k).mode = .pick then s.joinPresentation k pr t
    else s.joinStops k carrier t
  | .idle | .calling | .placing _ => s.joinStops k carrier t

/-- Two stops for one carrier joined (R58): the earlier sequence, the greater bypass count. Where neither sequence is
earlier, 32,768 apart, the joined stop keeps that of `y`, which stands in the list. DESIGN CHOICE (log entry 62). -/
def mergeStops (x y : Stop) : Stop where
  carrier := x.carrier
  tasks := x.tasks.foldl (fun ts t => addTask t ts) y.tasks
  creation := if earlier x.creation y.creation then x.creation else y.creation
  bypass := max x.bypass y.bypass

/-- A stop handed back by the port returns to the list (R58). One without tasks changes nothing. -/
def State.returnStop (s : State) (k : Nat) (x : Stop) : State :=
  if x.tasks.isEmpty then s
  else
    let c := s.carousel k
    let held := { x with bypass := min 15 x.bypass }
    let back :=
      match c.stops.find? (fun y => y.carrier = x.carrier) with
      | some y => mergeStops held y
      | none => held
    let t := s.onCarousel k (fun c => { c with
      stops := insertStop back (c.stops.filter (fun y => y.carrier ≠ x.carrier)) })
    if c.stops.isEmpty then t.autoCall k else t

/-- The stop a presentation hands back. -/
def Presentation.toStop (pr : Presentation) (bypass : Nat) : Stop where
  carrier := pr.carrier
  tasks := pr.tasks
  creation := pr.creation
  bypass := bypass

/-- The stop list without the task of one position of one carrier; an emptied stop leaves (R58). -/
def dropTask (carrier position : Nat) (stops : List Stop) : List Stop :=
  (stops.map (fun x =>
      if x.carrier = carrier then { x with tasks := x.tasks.filter (fun t => t.position ≠ position) }
      else x)).filter (fun x => !x.tasks.isEmpty)

/-- The task of a slot stands in the presentation `pr`. -/
def Presentation.holdsTask (pr : Presentation) (slot : Nat) : Bool :=
  pr.carrier = slotCarrier slot && pr.tasks.any (fun t => t.position = slotPosition slot)

/-- Take a slot's task out of the presentation, without ending it. -/
def Presentation.without (pr : Presentation) (slot : Nat) : Presentation :=
  { pr with tasks := pr.tasks.filter (fun t => t.position ≠ slotPosition slot) }

/-- The task naming a slot leaves the stop list or the presentation (R17, R18); a presentation left
with no task completes (R92), at once: of several releases in one event, at the one that leaves it so
(DESIGN CHOICE, log entry 48). -/
def State.removeTask (s : State) (slot : Nat) : State :=
  let k := slotCarousel slot
  let fromStops := s.onCarousel k (fun c => { c with
    stops := dropTask (slotCarrier slot) (slotPosition slot) c.stops })
  match (s.port k).work with
  | .presenting pr =>
    if pr.holdsTask slot then
      let rest := pr.without slot
      let t := (s.onPort k (fun p => { p with work := .presenting rest })).rebuild k
      if rest.tasks.isEmpty then t.completePresentation k else t
    else fromStops
  | .idle | .calling | .placing _ => fromStops

end Sys2Proof.Machine
end

