-- ==== Sys2Proof/Machine/Orders.lean ====
section
/-! DEFINITION. Orders and lines as the blocks share them: line arithmetic (R31, R32), the intake list
and the take-up (R30), lane readiness (R113), completion (R49), replan marks (R43). -/

namespace Sys2Proof.Machine

/-! ## Lines (R31, R32) -/

def Line.reservedCount (l : Line) : Nat := l.members.length

/-- The line's remainder (R31). -/
def Line.remainder (l : Line) : Nat := l.quantity - (l.reservedCount + l.picked + l.short)

/-- The line's state from its counts and its timer (R32). -/
def Line.state (l : Line) : LineState :=
  if 0 < l.remainder then
    match l.wait with
    | some _ => .waiting
    | none => .open
  else if 0 < l.reservedCount then .reserved
  else if 0 < l.short then .short
  else .done

/-- The line has nothing left to reserve or pick: DONE or SHORT. -/
def Line.settled (l : Line) : Bool := l.state = .done || l.state = .short

/-- The line looks for a window: MATCH, or MATCH-OR-OLDEST that has not fallen back (R37). -/
def Line.searches (l : Line) : Bool :=
  match l.rule with
  | .any => false
  | .matching => true
  | .matchingOrOldest => !l.fellBack

/-! ## The order table (R27) -/

def State.findOrder (s : State) (id : Nat) : Option Order := s.planner.orders.find? (fun o => o.id = id)

def State.setOrders (s : State) (os : List Order) : State := { s with planner := { s.planner with orders := os } }

def State.onOrder (s : State) (id : Nat) (f : Order → Order) : State :=
  s.setOrders (s.planner.orders.map (fun o => if o.id = id then f o else o))

def Order.findLine (o : Order) (n : Nat) : Option Line := o.lines.find? (fun l => l.number = n)

def Order.onLine (o : Order) (n : Nat) (f : Line → Line) : Order :=
  { o with lines := o.lines.map (fun l => if l.number = n then f l else l) }

def State.onLine (s : State) (id n : Nat) (f : Line → Line) : State :=
  s.onOrder id (fun o => o.onLine n f)

def State.findLine (s : State) (id n : Nat) : Option Line := (s.findOrder id).bind (fun o => o.findLine n)

/-- COMPLETE, CANCELLED or SHORT-CLOSED. -/
def OrderState.finished : OrderState → Bool
  | .complete | .cancelled | .shortClosed => true
  | .laneWait | .queued | .planning | .active => false

/-- CANCELLED or SHORT-CLOSED. -/
def OrderState.closed : OrderState → Bool
  | .cancelled | .shortClosed => true
  | .complete | .laneWait | .queued | .planning | .active => false

/-- In the intake list (R30). -/
def OrderState.waitsIntake : OrderState → Bool
  | .laneWait | .queued => true
  | .complete | .cancelled | .shortClosed | .planning | .active => false

/-- The quantities of an order's lines summed. -/
def Order.total (o : Order) : Nat := (o.lines.map Line.quantity).sum

/-- The intake list (R30): by priority, highest first, then by acceptance. -/
def State.intakeList (s : State) : List Order :=
  sortBy (fun o => 3 - o.priority) (s.planner.orders.filter (fun o => o.state.waitsIntake))

/-! ## Lane readiness (R113) -/

def Lane.countIn (l : Lane) (x : EntryState) : Nat := (l.expected.filter (fun e => e.state = x)).length

/-- The lane is fit for release (R113). -/
def State.laneFit (s : State) (j : Nat) : Bool :=
  let l := s.lane j
  l.closed
    && l.bound.all (fun id => match s.findOrder id with | some o => o.state.finished | none => true)
    && l.expected.all (fun e => e.state = .arrived || e.state = .late)
    && l.foreign = 0

/-- Judge a lane's readiness (R113). -/
def State.judgeLane (s : State) (j : Nat) : State :=
  let l := s.lane j
  match l.state with
  | .filling =>
    if s.laneFit j then
      (s.onLane j (fun l => { l with state := .ready })).notify
        (.laneReady j l.chain l.bound.length (l.countIn .arrived) (l.countIn .late))
    else s
  | .ready => if s.laneFit j then s else s.onLane j (fun l => { l with state := .filling })
  | .free | .opening => s

/-- Judge the lane of an order, if it has one. -/
def State.judgeLaneOf (s : State) (o : Order) : State :=
  match o.lane with
  | some j => s.judgeLane j
  | none => s

/-- An order's state changes, and the change is handed to the Lane Unit (R29, R113). -/
def State.setOrderState (s : State) (id : Nat) (x : OrderState) : State :=
  let t := s.onOrder id (fun o => { o with state := x })
  match t.findOrder id with
  | some o => t.judgeLaneOf o
  | none => t

/-! ## Completion (R49) -/

/-- The ORDER-COMPLETE notice of an order (R49). -/
def Order.completeNotice (o : Order) : Notice :=
  .orderComplete o.id o.source o.acceptance (o.lane.getD 255) ((o.lines.map Line.picked).sum)
    ((o.lines.map Line.short).sum) ((o.lines.filter (fun l => l.fellBack)).length)

/-- An order meets the completion test (R49). -/
def Order.completable (o : Order) : Bool :=
  o.state = .active && o.lines.all Line.settled && o.unsettled = 0

/-- The completion test (R49). -/
def State.completionTest (s : State) (id : Nat) : State :=
  match s.findOrder id with
  | some o => if o.completable then (s.notify o.completeNotice).setOrderState id .complete else s
  | none => s

/-- The completion test made when an event has left a line DONE or SHORT (R42, R45). -/
def State.testIfSettled (s : State) (id n : Nat) : State :=
  match s.findLine id n with
  | some l => if l.settled then s.completionTest id else s
  | none => s

/-! ## Take-up (R30) -/

/-- When no order is PLANNING, the first QUEUED order is taken up and its first planning step handed. -/
def State.takeUp (s : State) : State :=
  if s.planner.orders.any (fun o => o.state = .planning) then s
  else
    match s.intakeList.find? (fun o => o.state = .queued) with
    | none => s
    | some o => (s.setOrderState o.id .planning).hand [.planningStep o.id 1]

/-! ## Replan marks (R43) -/

/-- A mark set on a line gains the exclusion of the new mark if it carries one. A mark that excludes a carousel
already then excludes the new one alone (DESIGN CHOICE, log entry 47). -/
def ReplanMark.join (old : Option ReplanMark) (excluded : Option Nat) : ReplanMark :=
  match old, excluded with
  | some m, none => m
  | _, x => ⟨x⟩

/-- Set a line's replan mark; a line not yet marked has its replan handed (R43, R44). -/
def State.markLine (s : State) (id n : Nat) (excluded : Option Nat) : State :=
  match s.findLine id n with
  | none => s
  | some l =>
    let t := s.onLine id n (fun l => { l with mark := some (ReplanMark.join l.mark excluded) })
    match l.mark with
    | some _ => t
    | none => t.hand [.replan id n .mark]

/-- A line's replan mark is removed, and the replan it had handed with it (log entry 37). -/
def State.clearMark (s : State) (id n : Nat) : State :=
  (s.onLine id n (fun l => { l with mark := none })).take (.replan id n .mark)

/-- A slot leaves a line's reserved members (R42, R43, R17). -/
def Line.withoutMember (l : Line) (slot : Nat) : Line :=
  { l with members := l.members.filter (fun m => m.slot ≠ slot) }

end Sys2Proof.Machine
end

