-- ==== Sys2Proof/Machine/Stock.lean ====
section
/-! DEFINITION. The Stock Unit (01): its indexes as views of the slot table, the calendar and ages, the
requests other blocks hand it, LOAD-SLOTS and HOLD-RELEASE. -/

namespace Sys2Proof.Machine

/-! ## What a slot records (R2, R6, R7) -/

def Hold.tag : Hold → Option Nat
  | .missing t | .swapped t | .conflict t | .loaded t => some t.tag
  | .unexpected tag => some tag
  | .foreign tag _ => some tag
  | .vacated => none

def Tyre.goods (t : Tyre) : Goods := ⟨t.article, t.ordinal⟩

def Hold.goods : Hold → Option Goods
  | .missing t | .swapped t | .conflict t | .loaded t => some t.goods
  | .foreign _ g => g
  | .unexpected _ | .vacated => none

/-- The tag a slot records (R7). -/
def Content.tag : Content → Option Nat
  | .inbound t | .stored t | .reserved t _ _ => some t.tag
  | .held h => h.tag
  | .empty | .blocked => none

/-- The article and P a slot records, INBOUND included. -/
def Content.goods : Content → Option Goods
  | .inbound t | .stored t | .reserved t _ _ => some t.goods
  | .held h => h.goods
  | .empty | .blocked => none

/-- The article and P under which a slot stands in the stock index (R6). -/
def Content.listed : Content → Option Goods
  | .stored t | .reserved t _ _ => some t.goods
  | .held h => h.goods
  | .inbound _ | .empty | .blocked => none

/-! ## The indexes -/

/-- The list of an article (R6): its slots with their P, by P then slot index. -/
def State.articleList (s : State) (a : Nat) : List Member :=
  sortBy Member.ordinal (s.stock.slots.filterMap (fun e =>
    match e.2.content.listed with
    | some g => if g.article = a then some ⟨e.1, g.ordinal⟩ else none
    | none => none))

/-- The slot that records a tag (R7). -/
def State.tagSlot (s : State) (tag : Nat) : Option Nat :=
  (s.stock.slots.find? (fun e => e.2.content.tag = some tag)).map (fun e => e.1)

/-- The distinct members of a list, each at its first place. -/
def distinct (xs : List Nat) : List Nat :=
  xs.foldl (fun acc x => if acc.contains x then acc else acc ++ [x]) []

/-- The keys present in the stock index (R6). -/
def State.stockKeys (s : State) : List Nat :=
  distinct (s.stock.slots.filterMap (fun e => e.2.content.listed.map Goods.article))

/-- The articles counted in the key demand (R6): the keys, and the articles of INBOUND slots. -/
def State.demandArticles (s : State) : List Nat :=
  distinct (s.stock.slots.filterMap (fun e => e.2.content.goods.map Goods.article))

def State.keyDemand (s : State) : Nat := s.demandArticles.length

/-- The key demand allows an article (R6). -/
def State.demandAllows (s : State) (a : Nat) : Bool :=
  s.demandArticles.contains a || s.keyDemand < 2048

/-- The tag is recorded in a slot other than `i` (R7). -/
def State.tagElsewhere (s : State) (tag i : Nat) : Option Nat :=
  (s.stock.slots.find? (fun e => e.2.content.tag = some tag && e.1 ≠ i)).map (fun e => e.1)

/-! ## Ages (R10) -/

/-- The age of a tyre of production ordinal `p` (R10). -/
def State.age (s : State) (p : Nat) : Nat := (s.stock.calendar.ordinal + (5300 - p % 5300)) % 5300

/-- A tyre is date-ahead (R10). -/
def State.isDateAhead (s : State) (p : Nat) : Bool := s.stock.calendar.isSet && 4240 < s.age p

/-- The age test of R10 with maximum age `m`. -/
def State.ageTest (s : State) (m p : Nat) : Bool :=
  m = 0 || !s.stock.calendar.isSet || s.isDateAhead p || s.age p ≤ m

/-! ## The audit log (R118) -/

/-- Make an audit log entry, dropping the oldest at 128, with its notice (R118). -/
def State.logFinding (s : State) (slot : Nat) (kind : Finding) (expected observed other : Option Nat) : State :=
  let e : LogEntry := ⟨nextSequence s.audit.logCount, slot, kind, expected, observed, other⟩
  let kept := if 128 ≤ s.audit.log.length then s.audit.log.drop 1 else s.audit.log
  ({ s with audit := { s.audit with log := kept ++ [e], logCount := nextSequence s.audit.logCount } }).notify
    (.auditDiscrepancy (slotCarousel slot) e)

/-! ## Reservations lost and given up (R17, R18) -/

/-- A slot takes a new content and keeps its fresh mark. -/
def State.recontent (s : State) (i : Nat) (x : Content) : State :=
  s.writeSlot i { s.slot i with content := x }

/-- A slot takes a new content and its fresh mark is set (R4). -/
def State.refresh (s : State) (i : Nat) (x : Content) : State :=
  s.writeSlot i { content := x, fresh := true }

/-- The reservation of a RESERVED slot is cancelled (R18, R43); any other slot has none to cancel. The task leaves before
the slot takes its new content, so a presentation that it empties completes first. DESIGN CHOICE (log entry 64). -/
def State.cancelReservation (s : State) (i : Nat) : State :=
  match (s.slot i).content with
  | .reserved _ order line =>
    ((s.removeTask i).onLine order line (fun l => l.withoutMember i)).markLine order line none
  | .empty | .inbound _ | .stored _ | .held _ | .blocked => s

/-- A release (R17): none when the slot is not RESERVED for that line (NOT-RESERVED). -/
def State.releaseSlot (s : State) (i order line : Nat) : Option State :=
  match (s.slot i).content with
  | .reserved t o n =>
    if o = order ∧ n = line then
      some ((((s.recontent i (.stored t)).removeTask i).onLine order line
        (fun l => l.withoutMember i)).hand [.wakeUp t.article])
    else none
  | .empty | .inbound _ | .stored _ | .held _ | .blocked => none

/-- A release whose NOT-RESERVED answer changes nothing. -/
def State.tryRelease (s : State) (i order line : Nat) : State := (s.releaseSlot i order line).getD s

/-! ## Put-away (R11 to R15) -/

/-- The answer to a put-away choice. -/
inductive ChoiceAnswer where
  | chosen (slot ordinal : Nat)
  | refused (o : PutawayOutcome)
  deriving DecidableEq, Repr

/-- The slot positions of a carousel as pairs of carrier and slot index, mapped slots alone. -/
def Carousel.mappedSlots (c : Carousel) (k : Nat) : List (Nat × Nat) :=
  (List.range c.carriers).flatMap (fun x => (List.range c.positions).map (fun y => (x, slotIndex k x y)))

/-- The open slots for an article's zone mask (R12). -/
def State.openSlots (s : State) (k : Nat) (zones : BitVec 16) : List (Nat × Nat) :=
  let c := s.carousel k
  (c.mappedSlots k).filter (fun e => (s.slot e.2).content = .empty && zones.getLsbD (c.zone e.1))

/-- The first of the least travelled of some slots (R12, NEAREST), the list being by slot index. -/
def nearestSlot (c : Carousel) : List (Nat × Nat) → Option Nat
  | [] => none
  | x :: rest =>
    match nearestSlot c rest with
    | none => some x.2
    | some y =>
      if (c.travel (slotCarrier y)).rank < (c.travel x.1).rank then some y else some x.2

/-- A carrier is grouped for an article (R12). -/
def State.grouped (s : State) (k carrier article : Nat) : Bool :=
  (List.range 8).any (fun y =>
    match (s.slot (slotIndex k carrier y)).content.goods with
    | some g => g.article = article
    | none => false)

/-- The put-away strategy's choice among the open slots (R12). -/
def State.strategyChoice (s : State) (k article : Nat) (zones : BitVec 16) : Strategy → Option Nat
  | .nearest => nearestSlot (s.carousel k) (s.openSlots k zones)
  | .grouped =>
    match nearestSlot (s.carousel k) ((s.openSlots k zones).filter (fun e => s.grouped k e.1 article)) with
    | some i => some i
    | none => nearestSlot (s.carousel k) (s.openSlots k zones)

/-- The checks of R11 in their order, and the slot of R12. -/
def State.choosePutaway (s : State) (k tag article week year : Nat) : ChoiceAnswer :=
  let p := ordinalOf week year
  if !dateValid week year then .refused .badDate
  else
    match s.article article with
    | none => .refused .unknownArticle
    | some a =>
      if (s.tagSlot tag).isSome then .refused .duplicateTag
      else if s.isDateAhead p && (s.profile a.profile).refuseAhead then .refused .dateAhead
      else if !s.demandAllows article then .refused .noSpace
      else
        match s.strategyChoice k article a.zones (s.profile a.profile).strategy with
        | none => .refused .storeFull
        | some i => .chosen i p

/-- A put-away choice request (R11): with a slot chosen, it becomes INBOUND in the same event. -/
def State.putawayChoice (s : State) (k tag article week year : Nat) : State × ChoiceAnswer :=
  match s.choosePutaway k tag article week year with
  | .refused o => (s, .refused o)
  | .chosen i p =>
    let t := s.refresh i (.inbound ⟨tag, article, p⟩)
    (if s.isDateAhead p then t.notify (.dateAhead k i tag article week year) else t, .chosen i p)

/-- A withdrawal request (R15). A slot no longer INBOUND is left as it is. -/
def State.withdraw (s : State) (i : Nat) : State :=
  match (s.slot i).content with
  | .inbound _ => s.refresh i .empty
  | .empty | .stored _ | .reserved _ _ _ | .held _ | .blocked => s

/-- A placement conflict (R14): the tyre pending at `i` placed at a slot `t` that is not EMPTY. -/
def State.placeConflict (s : State) (i t : Nat) (tyre : Tyre) : State :=
  ((((s.cancelReservation t).logFinding t .displaced (s.slot t).content.tag (some tyre.tag) none).refresh t
    (.held (.conflict tyre)))).refresh i .empty

/-- A placement request (R13) of the pending slot `i` at slot `t`: none when `i` is no longer INBOUND
(WITHDRAWN). -/
def State.placement (s : State) (i t : Nat) : Option State :=
  match (s.slot i).content with
  | .inbound tyre =>
    if t = i then some ((s.refresh i (.stored tyre)).hand [.wakeUp tyre.article])
    else if (s.slot t).content = .empty then
      some (((s.refresh t (.stored tyre)).refresh i .empty).hand [.wakeUp tyre.article])
    else some (s.placeConflict i t tyre)
  | .empty | .stored _ | .reserved _ _ _ | .held _ | .blocked => none

/-! ## The candidate list and the selection (R35 to R40) -/

/-- The motion states in which a carousel's slots are eligible (R51, R35). -/
def CarouselState.eligible : CarouselState → Bool
  | .standing | .moving | .interrupted | .curtainWait => true
  | .offline | .fault | .yielded => false

/-- A slot of an article's list is eligible (R35). -/
def State.eligible (s : State) (maxAge : Nat) (excluded : Option Nat) (m : Member) : Bool :=
  (match (s.slot m.slot).content with
    | .stored _ => true
    | .empty | .inbound _ | .reserved _ _ _ | .held _ | .blocked => false)
    && (s.carousel (slotCarousel m.slot)).state.eligible
    && excluded ≠ some (slotCarousel m.slot)
    && s.ageTest maxAge m.ordinal

/-- The candidate list (R35). -/
def State.candidates (s : State) (article maxAge : Nat) (excluded : Option Nat) : List Member :=
  ((s.articleList article).filter (s.eligible maxAge excluded)).take 64

/-- The spread of some production ordinals. -/
def spread : List Nat → Nat
  | [] => 0
  | p :: rest => rest.foldl max p - rest.foldl min p

/-- The ordinals of the picked extremes, when present. -/
def extremeList : Option (Nat × Nat) → List Nat
  | none => []
  | some (lo, hi) => [lo, hi]

/-- The first run of `q` consecutive candidates whose spread, with the picked extremes, fits the
window (R37, R39). -/
def firstWindow (window q : Nat) (extremes : Option (Nat × Nat)) : List Member → Option (List Member)
  | [] => none
  | x :: rest =>
    let run := (x :: rest).take q
    if run.length = q ∧ spread (run.map Member.ordinal ++ extremeList extremes) ≤ window then some run
    else firstWindow window q extremes rest

/-- The offer whose first member has the smallest P, ties to the lowest carousel (R38). -/
def bestOffer : List (Option (List Member)) → Option (List Member)
  | [] => none
  | none :: rest => bestOffer rest
  | some x :: rest =>
    match bestOffer rest with
    | none => some x
    | some y =>
      if (y.head?.map Member.ordinal).getD 0 < (x.head?.map Member.ordinal).getD 0 then some y else some x

/-- The search for a window (R37 to R39). -/
def searchWindow (cap : Captured) (q : Nat) (extremes : Option (Nat × Nat)) (cands : List Member) :
    Option (List Member) :=
  if cap.sameCarousel then
    bestOffer (carouselNumbers.map (fun k =>
      firstWindow cap.window q extremes (cands.filter (fun m => slotCarousel m.slot = k))))
  else firstWindow cap.window q extremes cands

/-- The selection for a line (R36 to R40): the members chosen, and whether the line falls back. -/
def Line.select (l : Line) (cap : Captured) (q : Nat) (cands : List Member) : List Member × Bool :=
  if q = 0 then ([], false)
  else if !l.searches then (cands.take q, false)
  else
    match searchWindow cap q l.extremes cands with
    | some run => (run, false)
    | none => if l.rule = .matchingOrOldest ∧ cands ≠ [] then (cands.take q, true) else ([], false)

/-- A chosen slot becomes RESERVED for the line (R16). -/
def State.reserveSlot (s : State) (order line : Nat) (m : Member) : State :=
  match (s.slot m.slot).content with
  | .stored t => s.recontent m.slot (.reserved t order line)
  | .empty | .inbound _ | .reserved _ _ _ | .held _ | .blocked => s

/-- The member joins the line and its task joins the carousel's stop list or presentation (R16, R41). -/
def State.joinMember (s : State) (order line lane window : Nat) (m : Member) : State :=
  (s.onLine order line (fun l => { l with members := l.members ++ [m] })).placeTask
    (slotCarousel m.slot) (slotCarrier m.slot)
    { order := order, line := line, position := slotPosition m.slot, lane := lane, window := window }

/-- A reservation of the members chosen, in candidate order (R16). -/
def State.reserveMembers (s : State) (order line lane window : Nat) (ms : List Member) : State :=
  ms.foldl (fun t m => t.joinMember order line lane window m)
    (ms.foldl (fun t m => t.reserveSlot order line m) s)

/-! ## Picks and substitutions (R19, R20, R39, R42, R90, R91, R108) -/

/-- The picked extremes with one more tyre. -/
def joinExtremes (p : Nat) : Option (Nat × Nat) → Option (Nat × Nat)
  | none => some (p, p)
  | some (lo, hi) => some (min lo p, max hi p)

/-- A line's counts after a tyre of ordinal `p` is picked for its reserved slot `slot` (R42). -/
def Line.afterPick (l : Line) (slot p : Nat) : Line :=
  { l.withoutMember slot with picked := l.picked + 1, extremes := joinExtremes p l.extremes }

/-- An IN-TRANSIT expected entry joins the order's lane (R108), which is then judged (R113). -/
def State.joinExpected (s : State) (order tag : Nat) : State :=
  match (s.findOrder order).bind Order.lane with
  | none => s
  | some j =>
    (s.onLane j (fun l => { l with expected := l.expected ++
      [⟨tag, order, .inTransit, some (s.lanes.transitTimeout * 1000), s.now⟩] })).judgeLane j

/-- The line, the order and the lane after a pick or substitution (R42, R108). -/
def State.countPick (s : State) (order line slot tag p : Nat) : State :=
  (((s.onLine order line (fun l => l.afterPick slot p)).onOrder order
    (fun o => { o with unsettled := o.unsettled + 1 })).joinExpected order tag).testIfSettled order line

/-- The port after a pick or substitution (R90, R91): the task of slot `given` leaves the presentation,
position `donePosition` takes a done mark, and the presentation completes when no task remains. When the
task no longer stands in a presentation it is removed where it stands (log entry 20). -/
def State.donePick (s : State) (given donePosition : Nat) : State :=
  let k := slotCarousel given
  match (s.port k).work with
  | .presenting pr =>
    match pr.tasks.find? (fun t => pr.carrier = slotCarrier given && t.position = slotPosition given) with
    | some task =>
      let rest := { pr.without given with done := sparseInsert donePosition task.lane pr.done }
      let t := (s.onPort k (fun p => { p with
          work := .presenting rest, timer := some (p.timeout * 1000),
          display := { p.display with message := .none } })).rebuild k
      if rest.tasks.isEmpty then t.completePresentation k else t
    | none => s.removeTask given
  | .idle | .calling | .placing _ => s.removeTask given

/-- A pick request (R19): none when the answer is NOT-RESERVED. -/
def State.pick (s : State) (tag order line : Nat) : Option State :=
  match s.tagSlot tag with
  | none => none
  | some i =>
    match (s.slot i).content with
    | .reserved t o n =>
      if o = order ∧ n = line then
        some (((s.refresh i .empty).countPick order line i tag t.ordinal).donePick i (slotPosition i))
      else none
    | .empty | .inbound _ | .stored _ | .held _ | .blocked => none

/-- The set check (R39) for a line, the slot of the task to be given up and the scanned tyre's P. -/
def State.setCheck (s : State) (l : Line) (given p : Nat) : Bool :=
  match l.captured with
  | none => false
  | some cap =>
    s.ageTest cap.maxAge p
      && (!l.searches
        || spread (p :: ((l.withoutMember given).members.map Member.ordinal ++ extremeList l.extremes))
            ≤ cap.window)

/-- A substitution request (R20) of the STORED slot `u` for the RESERVED slot `r`: none when the answer
is REFUSED. -/
def State.substitute (s : State) (u r : Nat) : Option State :=
  match (s.slot u).content, (s.slot r).content with
  | .stored tu, .reserved tr order line =>
    match s.findLine order line with
    | none => none
    | some l =>
      if tu.article = tr.article ∧ s.setCheck l r tu.ordinal = true then
        some (((((s.refresh u .empty).recontent r (.stored tr)).countPick order line r tu.tag
          tu.ordinal).donePick r (slotPosition u)).hand [.wakeUp tr.article])
      else none
  | _, _ => none

/-! ## Requests from the audit (R21 to R23) -/

/-- A MISSING hold (R21) on a STORED or RESERVED slot. -/
def State.holdMissing (s : State) (i : Nat) : State :=
  match (s.slot i).content with
  | .stored t | .reserved t _ _ => (s.cancelReservation i).recontent i (.held (.missing t))
  | .empty | .inbound _ | .held _ | .blocked => s

/-- An UNEXPECTED hold (R21) on an EMPTY or INBOUND slot; the port of an INBOUND one is told. -/
def State.holdUnexpected (s : State) (i tag : Nat) : State :=
  match (s.slot i).content with
  | .empty => s.recontent i (.held (.unexpected tag))
  | .inbound _ =>
    if h : slotCarousel i < 8 then
      (s.recontent i (.held (.unexpected tag))).hand [.putawayWithdrawn ⟨slotCarousel i, h⟩ i]
    else s.recontent i (.held (.unexpected tag))
  | .stored _ | .reserved _ _ _ | .held _ | .blocked => s

/-- A SWAPPED hold (R22) on a STORED or RESERVED slot. -/
def State.holdSwapped (s : State) (i : Nat) : State :=
  match (s.slot i).content with
  | .stored t | .reserved t _ _ => (s.cancelReservation i).recontent i (.held (.swapped t))
  | .empty | .inbound _ | .held _ | .blocked => s

/-- An exchange of the records of two STORED slots (R22). -/
def State.exchange (s : State) (x y : Nat) : State :=
  (s.refresh x (s.slot y).content).refresh y (s.slot x).content

/-- A port whose pending put-away ended is told (R21, R23). -/
def State.tellPort (s : State) (i : Nat) (event : CarouselNo → Instr) : State :=
  match (s.slot i).content with
  | .inbound _ => if h : slotCarousel i < 8 then s.hand [event ⟨slotCarousel i, h⟩] else s
  | .empty | .stored _ | .reserved _ _ _ | .held _ | .blocked => s

/-- The tag a slot records of its own for a FOREIGN move: an INBOUND slot's pending tag is not (R23). -/
def Content.ownTag : Content → Option Nat
  | .inbound _ => none
  | .empty => none
  | .stored t | .reserved t _ _ => some t.tag
  | .held h => h.tag
  | .blocked => none

/-- What a vacated slot becomes (R23): EMPTY after INBOUND, else HELD under VACATED. -/
def Content.vacated : Content → Content
  | .inbound _ => .empty
  | .empty | .stored _ | .reserved _ _ _ | .held _ | .blocked => .held .vacated

/-- A FOREIGN move (R23) of tag `o`, seen at slot `t` and recorded at slot `v`. The reservations are cancelled before the
two slots are written. DESIGN CHOICE (log entry 64). -/
def State.foreignMove (s : State) (t v o : Nat) : State :=
  let cleared := (s.cancelReservation t).tellPort t (fun k => .putawayWithdrawn k t)
  let freed := (cleared.cancelReservation v).tellPort v (fun k => .putawayFoundElsewhere k v t)
  (freed.recontent t (.held (.foreign o (s.slot v).content.goods))).recontent v (s.slot v).content.vacated

/-! ## LOAD-SLOTS (R24) -/

/-- The content a LOAD-SLOTS record writes: none when the target state names none of its values. -/
def loadContent (r : SlotArg) : Option Content :=
  let t : Tyre := ⟨r.tag, r.article, ordinalOf r.week r.year⟩
  match r.target with
  | 0 => some .empty
  | 1 => some (.stored t)
  | 2 => some (.held (.loaded t))
  | 3 => some .blocked
  | _ => none

/-- The record's target carries a tyre. -/
def loadCarries (r : SlotArg) : Bool := r.target = 1 || r.target = 2

/-- An article code in range (R149). -/
def articleInRange (a : Nat) : Bool := 1 ≤ a && a ≤ 1048575

/-- The slot is INBOUND or RESERVED. -/
def Content.inWork : Content → Bool
  | .inbound _ | .reserved _ _ _ => true
  | .empty | .stored _ | .held _ | .blocked => false

/-- The outcome of one LOAD-SLOTS record (R24; log entry 27). -/
def State.loadOutcome (s : State) (r : SlotArg) : Status :=
  if !s.mapped r.slot || (loadContent r).isNone
      || (loadCarries r && (r.tag = 0 || !articleInRange r.article || !dateValid r.week r.year)) then
    .badArgument
  else if (s.slot r.slot).content.inWork || (loadCarries r && (s.tagElsewhere r.tag r.slot).isSome) then
    .refusedState
  else if loadCarries r && !s.demandAllows r.article then .noSpace
  else .done

/-- Apply one LOAD-SLOTS record with its outcome (R24). -/
def State.loadSlot (s : State) (r : SlotArg) : State :=
  match s.loadOutcome r, loadContent r with
  | .done, some (.stored t) => (s.refresh r.slot (.stored t)).hand [.wakeUp t.article]
  | .done, some x => s.refresh r.slot x
  | _, _ => s

/-- The records of a LOAD-SLOTS in their order: the state left, and the outcomes (R24). -/
def State.loadRecords (s : State) : List SlotArg → State × List Status
  | [] => (s, [])
  | r :: rest =>
    let more := (s.loadSlot r).loadRecords rest
    (more.1, s.loadOutcome r :: more.2)

/-- LOAD-SLOTS (R24). -/
def loadSlotsAnswer (records : List SlotArg) (s : State) : Answer :=
  if records.length = 0 ∨ 4 < records.length then s.refuse .badArgument
  else
    let r := s.loadRecords records
    ⟨r.1, .done, r.2.flatMap (fun o => be1 o.code)⟩

/-! ## HOLD-RELEASE (R25) -/

/-- The slot is HELD or BLOCKED. -/
def Content.outOfUse : Content → Bool
  | .held _ | .blocked => true
  | .empty | .inbound _ | .stored _ | .reserved _ _ _ => false

/-- The full record of a HELD slot: tag, article and P (R25). -/
def Content.heldTyre : Content → Option Tyre
  | .held h =>
    match h.tag, h.goods with
    | some tag, some g => some ⟨tag, g.article, g.ordinal⟩
    | _, _ => none
  | .empty | .inbound _ | .stored _ | .reserved _ _ _ | .blocked => none

/-- HOLD-RELEASE, form ACCEPT (R25). -/
def holdAcceptAnswer (i : Nat) (s : State) : Answer :=
  if !s.mapped i then s.refuse .badArgument
  else
    match (s.slot i).content.heldTyre with
    | some t => ⟨(s.refresh i (.stored t)).hand [.wakeUp t.article], .done, []⟩
    | none => s.refuse .refusedState

/-- HOLD-RELEASE, form CLEAR (R25). -/
def holdClearAnswer (i : Nat) (s : State) : Answer :=
  if !s.mapped i then s.refuse .badArgument
  else if !(s.slot i).content.outOfUse then s.refuse .refusedState
  else ⟨s.refresh i .empty, .done, []⟩

/-- HOLD-RELEASE, form SET (R25). -/
def holdSetAnswer (i tag article week year : Nat) (s : State) : Answer :=
  if tag = 0 then holdClearAnswer i s
  else if !s.mapped i || !articleInRange article || !dateValid week year then s.refuse .badArgument
  else if !(s.slot i).content.outOfUse then s.refuse .refusedState
  else
    match s.tagElsewhere tag i with
    | some j => ⟨s, .refusedState, be2 j⟩
    | none =>
      if !s.demandAllows article then s.refuse .noSpace
      else
        ⟨(s.refresh i (.stored ⟨tag, article, ordinalOf week year⟩)).hand [.wakeUp article], .done, []⟩

/-! ## The calendar (R9) -/

/-- The calendar after SET-CALENDAR of a valid week and year (R9). -/
def State.withCalendar (s : State) (week year : Nat) : State :=
  { s with stock := { s.stock with calendar := ⟨week, year, ordinalOf week year, true⟩ } }

/-- SET-CALENDAR (R9). -/
def setCalendarAnswer (week year : Nat) (s : State) : Answer :=
  if dateValid week year then ⟨s.withCalendar week year, .done, []⟩ else s.refuse .badArgument

end Sys2Proof.Machine
end

