-- ==== Sys2Proof/Machine/AuditWork.lean ====
section
/-! DEFINITION. The Audit Unit (06): zones and cursors, the judging of gate reports, certification, completed
sweeps, the audit log and AUDIT-SET (R117 to R132). -/

namespace Sys2Proof.Machine

/-! ## Zones and the cursor (R117, R129, R130) -/

/-- The carriers below N of a zone. -/
def Carousel.zoneCarriers (c : Carousel) (z : Nat) : List Nat :=
  (List.range c.carriers).filter (fun x => c.zone x = z)

/-- A zone is active on carousel `k` (R117). -/
def State.zoneActive (s : State) (k z : Nat) : Bool :=
  (s.auditRecord k).enabled.getLsbD z && !((s.carousel k).zoneCarriers z).isEmpty

/-- The active zones of carousel `k`, in ascending order. -/
def State.activeZones (s : State) (k : Nat) : List Nat := (List.range 16).filter (s.zoneActive k)

/-- The next active zone above `z`, wrapping (R129). -/
def State.zoneAfter (s : State) (k z : Nat) : Option Nat :=
  match (s.activeZones k).find? (fun y => z < y) with
  | some y => some y
  | none => (s.activeZones k).head?

/-- The streaks of some carriers become 0. -/
def clearStreaks (carriers : List Nat) (m : Sparse Nat) : Sparse Nat :=
  carriers.foldl (fun m x => sparseErase x m) m

/-- The cursor enters a zone, or becomes absent (R130; log entry 42). -/
def State.enterZone (s : State) (k : Nat) : Option Nat → State
  | none => s.onAudit k (fun a => { a with cursor := none })
  | some z => s.onAudit k (fun a => { a with
      cursor := some z, streaks := clearStreaks ((s.carousel k).zoneCarriers z) a.streaks,
      counts := sparseErase z a.counts })

/-- The cursor enters the lowest active zone, or becomes absent when none is active. -/
def State.enterLowest (s : State) (k : Nat) : State := s.enterZone k (s.activeZones k).head?

/-- Every carrier of the zone has a pass streak of M or more (R129). -/
def State.zoneCertified (s : State) (k z : Nat) : Bool :=
  ((s.carousel k).zoneCarriers z).all (fun x => (s.auditRecord k).quota ≤ (s.auditRecord k).streak x)

/-- The certification test (R129). -/
def State.certify (s : State) (k : Nat) : State :=
  match (s.auditRecord k).mode, (s.auditRecord k).cursor with
  | .zoneCycle, some z =>
    if s.zoneCertified k z then
      (s.notify (.auditZoneCertified k z ((s.auditRecord k).count z)
        ((s.carousel k).zoneCarriers z).length)).enterZone k (s.zoneAfter k z)
    else s
  | _, _ => s

/-- A change of zone map without a change of N (R130). -/
def State.zonesChanged (s : State) (k : Nat) : State :=
  match (s.auditRecord k).mode, (s.auditRecord k).cursor with
  | .zoneCycle, none => s.enterLowest k
  | .zoneCycle, some z => if s.zoneActive k z then s.certify k else s.enterZone k (s.zoneAfter k z)
  | .off, _ | .continuous, _ => s

/-- A change of N (R130). -/
def State.carriersChanged (s : State) (k : Nat) : State :=
  let t := s.onAudit k (fun a => { a with streaks := [], counts := [] })
  if (t.auditRecord k).mode = .zoneCycle then t.enterLowest k else t

/-! ## Classifying a position (R122, R123) -/

/-- What a position comes to (R123). -/
inductive Verdict where
  | agreement
  | missing
  | unexpected
  | foreign (slot : Nat)
  deriving DecidableEq, Repr

/-- The tag of a gate report's entry: 0 reads as none (R120). -/
def observedTag (tags : List Nat) (x : Nat) : Option Nat :=
  let t := tags.getD x 0
  if t = 0 then none else some t

/-- The slot other than `i` that records an observed tag. -/
def State.elsewhere (s : State) (i : Nat) : Option Nat → Option Nat
  | none => none
  | some tag => s.tagElsewhere tag i

/-- The tag `r` of R123: that of a STORED or RESERVED slot. -/
def Content.judgedTag : Content → Option Nat
  | .stored t | .reserved t _ _ => some t.tag
  | .empty | .inbound _ | .held _ | .blocked => none

/-- The first case of R123 that applies to slot `i` with observed tag `o`. -/
def State.verdict (s : State) (i : Nat) (o : Option Nat) : Verdict :=
  match (s.slot i).content with
  | .held _ =>
    match s.elsewhere i o with
    | some v => .foreign v
    | none => .agreement
  | x =>
    if o = x.judgedTag then .agreement
    else
      match s.elsewhere i o with
      | some v => .foreign v
      | none => if x.judgedTag.isSome then .missing else .unexpected

/-- A tag observed at two or more of the positions read (R121; log entry 41). -/
def duplicated (tags : List Nat) (positions x : Nat) : Bool :=
  match observedTag tags x with
  | none => false
  | some _ => (List.range positions).any (fun y => y ≠ x && observedTag tags y = observedTag tags x)

/-- A fresh slot is concerned in a disagreement (R122). -/
def State.freshConcern (s : State) (i : Nat) : Verdict → Bool
  | .agreement => false
  | .missing | .unexpected => (s.slot i).fresh
  | .foreign v => (s.slot i).fresh || (s.slot v).fresh

/-! ## Swap pairs (R121, R125) -/

/-- Positions `x` and `y` of a carrier form a swap pair (R121). -/
def State.swapPair (s : State) (tags : List Nat) (k c positions x y : Nat) : Bool :=
  let sx := s.slot (slotIndex k c x)
  let sy := s.slot (slotIndex k c y)
  x ≠ y && sx.content.judgedTag.isSome && sy.content.judgedTag.isSome
    && observedTag tags x = sy.content.judgedTag && observedTag tags y = sx.content.judgedTag
    && !sx.fresh && !sy.fresh && !duplicated tags positions x && !duplicated tags positions y

/-- The position with which `x` forms a swap pair, if any. -/
def State.swapPartner (s : State) (tags : List Nat) (k c positions x : Nat) : Option Nat :=
  (List.range positions).find? (s.swapPair tags k c positions x)

/-- The slot is STORED. -/
def Content.isStored : Content → Bool
  | .stored _ => true
  | .empty | .inbound _ | .reserved _ _ _ | .held _ | .blocked => false

/-- A discrepancy at a position of carrier `c` of carousel `k`: the log entry, the zone's count and the
carrier's streak (R124). -/
def State.discrepancy (s : State) (k c i : Nat) (kind : Finding) (expected observed other : Option Nat) : State :=
  (s.logFinding i kind expected observed other).onAudit k (fun a =>
    let z := (s.carousel k).zone c
    { a with counts := sparseSet 0 z (saturate 255 (a.count z)) a.counts, streaks := sparseErase c a.streaks })

/-- A swap pair is carried out (R125). -/
def State.carrySwap (s : State) (k c x y : Nat) : State :=
  let i := slotIndex k c x
  let j := slotIndex k c y
  let tx := (s.slot i).content.judgedTag
  let ty := (s.slot j).content.judgedTag
  if (s.auditRecord k).autoCorrect && (s.slot i).content.isStored && (s.slot j).content.isStored then
    ((s.exchange i j).discrepancy k c i .corrected tx ty none).discrepancy k c j .corrected ty tx none
  else
    (((s.holdSwapped i).holdSwapped j).discrepancy k c i .swapped tx ty none).discrepancy k c j .swapped ty tx none

/-! ## Judging (R121 to R128) -/

/-- A judgement under way: the state, whether a discrepancy was found, whether a position was unsettled. -/
structure Judgement where
  state : State
  found : Bool := false
  doubtful : Bool := false
  deriving DecidableEq, Repr

/-- A slot's fresh mark is cleared once it has been compared (R122). -/
def State.clearFresh (s : State) (i : Nat) : State := s.setSlot i { s.slot i with fresh := false }

/-- The DISPLACED entry after a FOREIGN move onto a slot that recorded a tag of its own (R126). -/
def State.logDisplaced (s : State) (i : Nat) (own o : Option Nat) : State :=
  match own with
  | none => s
  | some _ => s.logFinding i .displaced own o none

/-- Carry out the outcome of a settled position at slot `i` (R123, R124, R126; log entry 40). -/
def State.carryVerdict (s : State) (k c i : Nat) (o : Option Nat) : Verdict → State
  | .agreement => s
  | .missing => (s.holdMissing i).discrepancy k c i .missing (s.slot i).content.judgedTag o none
  | .unexpected => (s.holdUnexpected i (o.getD 0)).discrepancy k c i .unexpected none o none
  | .foreign v =>
    ((s.foreignMove i v (o.getD 0)).discrepancy k c i .foreign (s.slot i).content.ownTag o (some v)).logDisplaced
      i (s.slot i).content.ownTag o

/-- Compare a position that is in no swap pair (R122, R123). -/
def Judgement.compare (g : Judgement) (tags : List Nat) (k c positions x : Nat) : Judgement :=
  let i := slotIndex k c x
  let o := observedTag tags x
  let v := g.state.verdict i o
  let cleared := g.state.clearFresh i
  if duplicated tags positions x || g.state.freshConcern i v then
    { g with state := cleared, doubtful := true }
  else
    { g with state := cleared.carryVerdict k c i o v, found := g.found || v ≠ .agreement }

/-- Take one position, in ascending order, with the swap pairs found at the start of the report (R121). -/
def Judgement.position (pairs : Nat → Option Nat) (tags : List Nat) (k c positions : Nat) (g : Judgement)
    (x : Nat) : Judgement :=
  match pairs x with
  | none => g.compare tags k c positions x
  | some y => if x < y then { g with state := g.state.carrySwap k c x y, found := true } else g

/-- The carrier's streak at the end of a judged report (R128). -/
def Judgement.settle (g : Judgement) (k c : Nat) : State :=
  if g.found || g.doubtful then g.state
  else g.state.onAudit k (fun a => { a with streaks := sparseSet 0 c (saturate 4 (a.streak c)) a.streaks })

/-- Judge a report (R121), settle its streak and make the certification test (R128, R129). -/
def State.judge (s : State) (k c : Nat) (tags : List Nat) : State :=
  let p := (s.carousel k).positions
  let g := (List.range p).foldl
    (Judgement.position (s.swapPartner tags k c p) tags k c p) { state := s }
  (g.settle k c).certify k

/-- The carousel's audit mode lets a report of carrier `c` be judged (R120). -/
def State.modeJudges (s : State) (k c : Nat) : Bool :=
  let a := s.auditRecord k
  let z := (s.carousel k).zone c
  match a.mode with
  | .off => false
  | .continuous => a.enabled.getLsbD z
  | .zoneCycle => a.cursor = some z

/-- The port presents carrier `c`. -/
def Port.presents (p : Port) (c : Nat) : Bool :=
  match p.work with
  | .presenting pr => pr.carrier = c
  | .idle | .calling | .placing _ => false

/-- A report of carrier `c` is judged, and not set aside (R120). -/
def State.judged (s : State) (k c : Nat) : Bool :=
  c < (s.carousel k).carriers && (s.carousel k).state ≠ .offline && s.modeJudges k c
    && !(s.port k).presents c

/-- GATE (R120). -/
def State.gateReport (s : State) (k c : Nat) (tags : List Nat) : State :=
  let t := s.onAudit k (fun a => { a with reports := saturate 65535 a.reports })
  if s.judged k c then t.judge k c tags else t

/-! ## Sweeps (R131) -/

/-- A sweep of carousel `k` completed (R131). -/
def State.sweepCompleted (s : State) (k : Nat) : State :=
  let told := if (s.auditRecord k).reports = 0 then s.notify (.gateSilent k (s.carousel k).gate) else s
  told.onAudit k (fun a => { a with reports := 0 })

/-! ## AUDIT-SET (R119) -/

/-- The cursor is kept by AUDIT-SET: ZONE-CYCLE before and after, and its zone still active. -/
def State.keepsCursor (s : State) (k : Nat) (before : AuditMode) : Bool :=
  before = .zoneCycle && (match (s.auditRecord k).cursor with | some z => s.zoneActive k z | none => false)

/-- AUDIT-SET with its four values stored (R119, items 2 and 4). -/
def State.settleCursor (s : State) (k : Nat) (before : AuditMode) : State :=
  match (s.auditRecord k).mode with
  | .off | .continuous => s
  | .zoneCycle => (if s.keepsCursor k before then s else s.enterLowest k).certify k

/-- AUDIT-SET (R119). -/
def auditSetAnswer (k mode : Nat) (zones : BitVec 16) (quota : Nat) (auto : Bool) (s : State) : Answer :=
  match auditModeOf? mode with
  | none => s.refuse .badArgument
  | some m =>
    if 7 < k ∨ quota < 1 ∨ 4 < quota then s.refuse .badArgument
    else
      ⟨(s.onAudit k (fun a => { a with mode := m, enabled := zones, quota := quota, autoCorrect := auto })).settleCursor
        k (s.auditRecord k).mode, .done, []⟩

/-! ## READ-AUDIT-LOG (R132) -/

/-- A log entry as READ-AUDIT-LOG returns it: kind and slot in two bytes, then the tags and the other slot. -/
def LogEntry.bytes (e : LogEntry) : List Byte :=
  be2 (e.kind.code * 8192 + e.slot) ++ optTag e.expected ++ optTag e.observed ++ opt2 e.other

/-- The sequence of the first entry returned; free when none is (log entry 9). -/
def firstSequence : List LogEntry → List Byte
  | [] => be2 Config.noSequence.toNat
  | e :: _ => be2 e.sequence

/-- READ-AUDIT-LOG (R132). -/
def readLogAnswer (s : State) : Answer :=
  let out := s.audit.log.take 4
  let rest := s.audit.log.drop 4
  ⟨{ s with audit := { s.audit with log := rest } }, .done,
    be1 out.length ++ be1 rest.length ++ firstSequence out ++ out.flatMap LogEntry.bytes⟩

end Sys2Proof.Machine
end

