-- ==== Sys2Proof/Machine/Planner.lean ====
section
/-! DEFINITION. The Planner (02): order intake with its lane binding (R28, R104, R105), the planning step,
replans, wake-ups and waits (R33 to R46), cancel and short close (R47, R48). -/

namespace Sys2Proof.Machine

/-! ## The planning step (R33, R34) -/

/-- The ORDER-SHORT notice of a line as it stands (R33). -/
def Order.shortNotice (o : Order) (l : Line) (cause : ShortCause) : Notice :=
  .orderShort o.id o.source l.number l.article l.short cause

/-- A line's wait timer starts with the hold limit in minutes, unless it runs already (R33, R45). -/
def Line.waits (limit : Nat) (l : Line) : Line := { l with wait := some (l.wait.getD (limit * 60000)) }

/-- A line's remainder is counted short and its wait ends (R33, R45). -/
def Line.runsShort (l : Line) : Line := { l with short := l.short + l.remainder, wait := none }

/-- Count a line's remainder short, with its ORDER-SHORT notice (R33, R45). -/
def State.shortLine (s : State) (o : Order) (n : Nat) (cause : ShortCause) : State :=
  let t := s.onLine o.id n Line.runsShort
  match t.findLine o.id n with
  | some l => t.notify (o.shortNotice l cause)
  | none => t

/-- Settle a line by its remainder and the order's shortage policy (R33, item 5). -/
def State.settleLine (s : State) (o : Order) (n : Nat) : State :=
  match s.findLine o.id n with
  | none => s
  | some l =>
    if l.remainder = 0 then s.onLine o.id n (fun l => { l with wait := none })
    else
      match o.shortage with
      | .hold limit => s.onLine o.id n (Line.waits limit)
      | .shipShort => s.shortLine o n .notAvailable

/-- The step of a line whose policy is captured (R33, items 2 to 5): the reservation request (R16), the
members and tasks it gives, the mark cleared, the line settled. -/
def State.stepLine (s : State) (o : Order) (n : Nat) : State :=
  match s.findLine o.id n with
  | none => s
  | some l =>
    match l.captured with
    | none => s
    | some cap =>
      let chosen := l.select cap l.remainder
        (s.candidates l.article cap.maxAge (l.mark.bind ReplanMark.excluded))
      let flagged := s.onLine o.id n (fun l => { l with fellBack := l.fellBack || chosen.2 })
      let reserved := flagged.reserveMembers o.id n (o.lane.getD 0) cap.window chosen.1
      (reserved.clearMark o.id n).settleLine o n

/-- What a line captures from its article's profile (R34). -/
def Profile.captured (p : Profile) : Captured := ⟨p.window, p.maxAge, p.sameCarousel⟩

/-- A line's first planning step (R34): it captures its policy and takes its step, or is SHORT when the
active bank has no record of its article. -/
def State.firstStep (s : State) (o : Order) (l : Line) : State :=
  match s.article l.article with
  | none =>
    (s.onLine o.id l.number (fun l => { l with short := l.quantity })).notify
      (o.shortNotice { l with short := l.quantity } .unknownArticle)
  | some a =>
    (s.onLine o.id l.number (fun l => { l with captured := some (s.profile a.profile).captured })).stepLine
      o l.number

/-- The planning goes on after the first step of line `n` (R30): the next line's step is handed, or the
order becomes ACTIVE, is tested for completion, and the next QUEUED order is taken up. -/
def State.planOn (s : State) (o : Order) (n : Nat) : State :=
  let t := s.onOrder o.id (fun o => { o with planned := n })
  if n < o.lines.length then t.hand [.planningStep o.id (n + 1)]
  else ((t.setOrderState o.id .active).completionTest o.id).takeUp

/-- A planning step of line `n` of order `id` (R33): the first step of the line next in the planning of a
PLANNING order, or a later step of a line that has had its first, in a COMPLETE order too: it clears the mark
of a line made SHORT by its wait (R45). Any other changes nothing (log entry 39). -/
def State.planningStep (s : State) (id n : Nat) : State :=
  match s.findOrder id with
  | none => s
  | some o =>
    match o.findLine n with
    | none => s
    | some l =>
      if o.state.closed then s
      else if n ≤ o.planned then (s.stepLine o n).testIfSettled id n
      else if o.state = .planning ∧ n = o.planned + 1 then (s.firstStep o l).planOn o n
      else s

/-! ## Replans, wake-ups and waits (R44 to R46) -/

/-- The requests a replan hands (R44): the releases of the members a searching line still holds, then the
planning step. -/
def Line.replanRequests (l : Line) (id : Nat) : List Instr :=
  (if l.searches then l.members.map (fun m => Instr.release m.slot id l.number) else [])
    ++ [.planningStep id l.number]

/-- A replan is still wanted: the mark that started it stands, or the line woken still waits (R44, R46). -/
def Line.wantsReplan (l : Line) : ReplanCause → Bool
  | .mark => l.mark.isSome
  | .wakeUp => l.state = .waiting

/-- The replan of a line (R44, R46). -/
def State.replan (s : State) (id n : Nat) (cause : ReplanCause) : State :=
  match s.findOrder id with
  | none => s
  | some o =>
    match o.findLine n with
    | none => s
    | some l =>
      if o.state.closed || !l.wantsReplan cause then s else s.handFirst (l.replanRequests id)

/-- The WAITING lines of an article, as pairs of order id and line number, by acceptance and then by line
number (R46). -/
def State.waitingLines (s : State) (article : Nat) : List (Nat × Nat) :=
  s.planner.orders.flatMap (fun o =>
    (o.lines.filter (fun l => l.article = article && l.state = .waiting)).map (fun l => (o.id, l.number)))

/-- A wake-up for an article (R46). -/
def State.wakeUp (s : State) (article : Nat) : State :=
  s.hand ((s.waitingLines article).map (fun x => Instr.replan x.1 x.2 .wakeUp))

/-- A line's wait timer expires (R45); a stopped timer does not. -/
def State.waitExpiry (s : State) (id n : Nat) : State :=
  match s.findOrder id with
  | none => s
  | some o =>
    match o.findLine n with
    | none => s
    | some l =>
      match l.wait with
      | none => s
      | some _ => (s.shortLine o n .waitExpired).testIfSettled id n

/-! ## Lane binding at intake (R104, R105) -/

/-- The lane that holds the open chain `h`. -/
def State.openChainLane (s : State) (h : Nat) : Option Nat :=
  laneNumbers.find? (fun j => (s.lane j).state ≠ .free && (s.lane j).chain = h && !(s.lane j).closed)

/-- The lowest-numbered FREE lane. -/
def State.freeLane (s : State) : Option Nat := laneNumbers.find? (fun j => (s.lane j).state = .free)

/-- The waiting chain `h` that is open. -/
def State.openWaitingChain (s : State) (h : Nat) : Option WaitingChain :=
  s.lanes.waiting.find? (fun w => w.chain = h && !w.closed)

/-- The answers of the Lane Unit to an order's binding. -/
inductive Binding where
  | lane (j : Nat)
  | noLane
  | refused (status : Status)
  deriving DecidableEq, Repr

/-- A chain of so many members and such a quantity takes an order of total `t`, or refuses it (R105). R105 puts its two
checks in no order; where both fail the model answers TOO-LARGE. DESIGN CHOICE (log entry 54). -/
def chainRefusal (quantity members t : Nat) : Option Status :=
  if 16 < quantity + t then some .tooLarge else if 8 ≤ members then some .noSpace else none

/-- The chain wait list replaced. -/
def State.setWaiting (s : State) (ws : List WaitingChain) : State :=
  { s with lanes := { s.lanes with waiting := ws } }

/-- The waiting chains, with the open chain `h` changed. -/
def State.onOpenWaiting (s : State) (h : Nat) (f : WaitingChain → WaitingChain) : State :=
  s.setWaiting (s.lanes.waiting.map (fun w => if w.chain = h ∧ w.closed = false then f w else w))

/-- A FREE lane bound to a chain or an unchained order (R104, R105, R106). Its foreign count stays. -/
def State.bindLane (s : State) (j chain : Nat) (closed : Bool) (bound : List Nat) (quantity : Nat) : State :=
  s.onLane j (fun l => { l with state := .filling, chain := chain, closed := closed, bound := bound,
                                quantity := quantity })

/-- An unchained order's binding (R104). -/
def State.bindUnchained (s : State) (id t : Nat) : State × Binding :=
  match s.freeLane with
  | some j => (s.bindLane j 0 true [id] t, .lane j)
  | none => (s, .noLane)

/-- A chained order's binding, by the first of the three cases of R105. -/
def State.bindChained (s : State) (id h t : Nat) (continues : Bool) : State × Binding :=
  match s.openChainLane h with
  | some j =>
    match chainRefusal (s.lane j).quantity (s.lane j).bound.length t with
    | some st => (s, .refused st)
    | none =>
      (s.onLane j (fun l => { l with bound := l.bound ++ [id], quantity := l.quantity + t,
                                     closed := !continues }), .lane j)
  | none =>
    match s.openWaitingChain h with
    | some w =>
      match chainRefusal w.quantity w.members.length t with
      | some st => (s, .refused st)
      | none =>
        (s.onOpenWaiting h (fun w => { w with members := w.members ++ [id], quantity := w.quantity + t,
                                              closed := !continues }), .noLane)
    | none =>
      match s.freeLane with
      | some j => (s.bindLane j h (!continues) [id] t, .lane j)
      | none =>
        (s.setWaiting (s.lanes.waiting ++ [⟨h, !continues, [id], t⟩]), .noLane)

/-- The binding of an order at its acceptance (R104, R105). -/
def State.bindOrder (s : State) (id chain t : Nat) (continues : Bool) : State × Binding :=
  if chain = 0 then s.bindUnchained id t else s.bindChained id chain t continues

/-! ## Order intake (R28, R29) -/

/-- A line argument in range (R28, check 1). -/
def lineArgValid (l : LineArg) : Bool :=
  1 ≤ l.quantity && l.quantity ≤ 8 && articleInRange l.article && (setRuleOf? l.rule).isSome

/-- The shortage policies, numbered as ORDER numbers them: SHIP-SHORT, or HOLD with its limit brought into
1 to 1440 minutes. -/
def shortageOf? (policy limit : Nat) : Option Shortage :=
  match policy with
  | 0 => some .shipShort
  | 1 => some (.hold (clamp 1 1440 limit))
  | _ => none

/-- A HOLD limit was brought into range (R28). -/
def limitClamped (policy limit : Nat) : Bool := policy = 1 && (limit < 1 || 1440 < limit)

/-- Number items from `n` on. -/
def numberFrom {α : Type} (n : Nat) : List α → List (Nat × α)
  | [] => []
  | x :: rest => (n, x) :: numberFrom (n + 1) rest

/-- The new line of a line argument (R31). -/
def newLine (number : Nat) (l : LineArg) : Line where
  number := number
  article := l.article
  quantity := l.quantity
  rule := (setRuleOf? l.rule).getD .any

/-- The first line whose article is not in the active bank (R28, check 3). -/
def State.unknownLine (s : State) (lines : List LineArg) : Option Nat :=
  ((numberFrom 1 lines).find? (fun x => (s.article x.2.article).isNone)).map (fun x => x.1)

/-- The quantities of the lines summed (R28, check 4). -/
def lineTotal (lines : List LineArg) : Nat := (lines.map LineArg.quantity).sum

/-- The order's own fields are in range (R28, check 1). -/
def orderFieldsValid (id priority policy : Nat) (lines : List LineArg) : Bool :=
  id ≠ 0 && priority ≤ 3 && policy ≤ 1 && 1 ≤ lines.length && lines.length ≤ 8 && lines.all lineArgValid

/-- The record of an accepted order (R27, R28). -/
def newOrder (src id priority chain : Nat) (continues : Bool) (shortage : Shortage) (lines : List LineArg)
    (acceptance : Nat) (lane : Option Nat) : Order where
  id := id
  source := src
  priority := priority
  chain := chain
  continues := continues
  shortage := shortage
  state := match lane with | some _ => .queued | none => .laneWait
  lane := lane
  lines := (numberFrom 1 lines).map (fun x => newLine x.1 x.2)
  acceptance := acceptance

/-- The record enters the table with the next acceptance sequence, its lane is judged and, when it is
QUEUED, a free Planner takes an order up (R28 to R30, R113). -/
def State.acceptOrder (s : State) (o : Order) : State :=
  let t : State := { s with planner := { orders := s.planner.orders ++ [o], acceptances := o.acceptance } }
  match o.lane with
  | none => t
  | some j => (t.judgeLane j).takeUp

/-- ORDER (R28). -/
def orderAnswer (src id priority chain : Nat) (continues : Bool) (policy limit : Nat)
    (lines : List LineArg) (s : State) : Answer :=
  if !orderFieldsValid id priority policy lines then s.refuse .badArgument
  else if (s.findOrder id).isSome then s.refuse .refusedState
  else
    match s.unknownLine lines with
    | some n => ⟨s, .unknownArticle, be1 n⟩
    | none =>
      if 16 < lineTotal lines then s.refuse .tooLarge
      else if 64 ≤ s.planner.orders.length then s.refuse .noSpace
      else
        let b := s.bindOrder id chain (lineTotal lines) continues
        let sequence := nextSequence s.planner.acceptances
        let record := newOrder src id priority chain continues
          ((shortageOf? policy limit).getD .shipShort) lines sequence
        let status : Status := if limitClamped policy limit then .clamped else .done
        match b.2 with
        | .refused st => s.refuse st
        | .lane j => ⟨b.1.acceptOrder (record (some j)), status, be2 sequence ++ be1 j⟩
        | .noLane => ⟨b.1.acceptOrder (record none), status, be2 sequence ++ be1 255⟩

/-! ## Cancel and short close (R47, R48) -/

/-- A line at the closing of its order (R47): the remainder and the members to be released count short, the
mark goes and the wait ends. -/
def Line.closes (l : Line) : Line :=
  { l with short := l.short + l.remainder + l.reservedCount, mark := none, wait := none }

/-- A handed event of the planning of order `id`: a planning step, or a replan started by a mark. -/
def plansOrder (id : Nat) : Instr → Bool
  | .planningStep o _ => o = id
  | .replan o _ .mark => o = id
  | _ => false

/-- The planning and the marked replans of an order are handed no more (R47, R48; log entry 37). -/
def State.stopPlanning (s : State) (id : Nat) : State :=
  { s with handed := s.handed.filter (fun c => !plansOrder id c) }

/-- The releases of an order's reserved members, in line order and member order (R47). -/
def State.releaseMembers (s : State) (o : Order) : State :=
  o.lines.foldl (fun t l => l.members.foldl (fun u m => u.tryRelease m.slot o.id l.number) t) s

/-- An order leaves a waiting chain, and an emptied chain leaves the list (R107). -/
def State.leaveWaiting (s : State) (o : Order) : State :=
  s.setWaiting ((s.lanes.waiting.map (fun w =>
      if w.members.contains o.id then
        { w with members := w.members.filter (fun m => m ≠ o.id), quantity := w.quantity - o.total }
      else w)).filter (fun w => !w.members.isEmpty))

/-- An order leaves the order table. -/
def State.dropOrder (s : State) (id : Nat) : State :=
  s.setOrders (s.planner.orders.filter (fun o => o.id ≠ id))

/-- Carry out the closing of an order as `x`, CANCELLED or SHORT-CLOSED (R47, R48). -/
def State.closeOrder (s : State) (o : Order) (x : OrderState) : State :=
  let counted := (s.onOrder o.id (fun o => { o with lines := o.lines.map Line.closes })).stopPlanning o.id
  let released := (counted.releaseMembers o).setOrderState o.id x
  match o.state with
  | .laneWait => (released.leaveWaiting o).dropOrder o.id
  | .planning => released.takeUp
  | .queued | .active | .complete | .cancelled | .shortClosed => released

/-- The chain of an order is closed (R107): that of its lane, which is judged, or a waiting chain. -/
def State.closeChain (s : State) (o : Order) : State :=
  match o.lane with
  | some j =>
    if (s.lane j).chain = 0 then s else (s.onLane j (fun l => { l with closed := true })).judgeLane j
  | none =>
    s.setWaiting (s.lanes.waiting.map (fun w =>
      if w.members.contains o.id then { w with closed := true } else w))

/-- The picked and short counts of each line after the closing (R47). -/
def Order.closingData (o : Order) : List Byte :=
  o.lines.flatMap (fun l => be1 l.picked ++ be1 l.closes.short)

/-- The checks of R47: the order, or the status of the refusal. -/
def State.closable (s : State) (src id : Nat) : Except Status Order :=
  match s.findOrder id with
  | none => .error .noSuchRecord
  | some o =>
    if src ≠ 0 ∧ src ≠ o.source then .error .notPermitted
    else if o.state.finished then .error .refusedState
    else .ok o

/-- ORDER-CANCEL (R47). -/
def cancelAnswer (src id : Nat) (s : State) : Answer :=
  match s.closable src id with
  | .error st => s.refuse st
  | .ok o => ⟨s.closeOrder o .cancelled, .done, o.closingData⟩

/-- SHORT-CLOSE (R47, R107). -/
def shortCloseAnswer (src id : Nat) (endChain : Bool) (s : State) : Answer :=
  match s.closable src id with
  | .error st => s.refuse st
  | .ok o =>
    ⟨(if endChain then s.closeChain o else s).closeOrder o .shortClosed, .done, o.closingData⟩

end Sys2Proof.Machine
end

