-- ==== Sys2Proof/Machine/LaneWork.lean ====
section
/-! DEFINITION. The Lane Unit (05): settings, arrivals and losses, release, emptying and the offer of a freed
lane (R102, R106, R109 to R115). Binding stands with order intake (Machine/Planner.lean). -/

namespace Sys2Proof.Machine

/-! ## Settings (R102) -/

/-- A node address a command may configure: 1 to 62 and not the part's own (R52, R102). -/
def State.nodeAllowed (s : State) (node : Nat) : Bool := 1 ≤ node && node ≤ 62 && node ≠ s.address

/-- The node is the drive, port or gate node of a carousel. -/
def Carousel.usesNode (c : Carousel) (node : Nat) : Bool :=
  c.drive = some node || c.port = some node || c.gate = some node

/-- SET-LANES (R102). -/
def setLanesAnswer (node timeout : Nat) (s : State) : Answer :=
  if !s.nodeAllowed node || carouselNumbers.any (fun k => (s.carousel k).usesNode node) then
    s.refuse .badArgument
  else if laneNumbers.any (fun j => (s.lane j).state = .opening) then s.refuse .refusedState
  else
    ⟨{ s with lanes := { s.lanes with conveyor := some node, transitTimeout := clamp 10 1800 timeout } },
      if clamp 10 1800 timeout = timeout then .done else .clamped, []⟩

/-! ## Arrivals (R109, R111) -/

/-- An entry that has not settled: IN-TRANSIT or LOST. -/
def Entry.unsettled (e : Entry) : Bool := e.state = .inTransit || e.state = .lost

/-- What an entry becomes when it settles: ARRIVED, or LATE after LOST (R109). -/
def Entry.settles (e : Entry) : Entry :=
  { e with state := (if e.state = .lost then .late else .arrived), timer := none }

/-- Change the first entry of a list that satisfies `p`. -/
def changeFirst {α : Type} (p : α → Bool) (f : α → α) : List α → List α
  | [] => []
  | x :: rest => if p x then f x :: rest else x :: changeFirst p f rest

/-- The entry is an unsettled one for the tag. -/
def Entry.awaits (tag : Nat) (e : Entry) : Bool := e.tag = tag && e.unsettled

/-- The seconds since an entry's pick (R109), rounded down (log entry 34), saturating (10). -/
def State.secondsSince (s : State) (e : Entry) : Nat := min 65535 ((s.now - e.pickedAt) / 1000)

/-- A settlement is reported to the Planner (R49). -/
def State.settleOrder (s : State) (id : Nat) : State :=
  (s.onOrder id (fun o => { o with unsettled := o.unsettled - 1 })).completionTest id

/-- The earliest unsettled entry `e` for the tag settles (R109). -/
def State.settleArrival (s : State) (j : Nat) (e : Entry) : State :=
  let t := s.onLane j (fun l => { l with expected := changeFirst (Entry.awaits e.tag) Entry.settles l.expected })
  let told := if e.state = .lost then t.notify (.lateArrival j e.tag e.order (s.secondsSince e)) else t
  (told.settleOrder e.order).judgeLane j

/-- The lowest-numbered lane that expects the tag, IN-TRANSIT or LOST (R111). -/
def State.expectingLane (s : State) (tag : Nat) : Option Nat :=
  laneNumbers.find? (fun j => (s.lane j).expected.any (Entry.awaits tag))

/-- A foreign arrival (R111). -/
def State.foreignArrival (s : State) (j tag : Nat) : State :=
  ((s.onLane j (fun l => { l with foreign := saturate 255 l.foreign })).notify
    (.misrouted j tag (s.expectingLane tag))).judgeLane j

/-- ARRIVE at lane `j` (R109, R111). -/
def State.arrival (s : State) (j tag : Nat) : State :=
  if 23 < j then s
  else
    match (s.lane j).expected.find? (Entry.awaits tag) with
    | some e => s.settleArrival j e
    | none => if (s.lane j).expected.any (fun e => e.tag = tag) then s else s.foreignArrival j tag

/-! ## Losses (R110) -/

/-- The entry at a place of a lane's list becomes LOST. -/
def State.loseEntry (s : State) (j i : Nat) (e : Entry) : State :=
  ((s.onLane j (fun l => { l with expected := l.expected.set i { e with state := .lost, timer := none } })).notify
    (.transitLost j e.tag e.order (((s.findOrder e.order).map Order.source).getD 0))).judgeLane j

/-- The transit timer of entry `i` of lane `j` expires (R110); a stopped timer does not. -/
def State.transitExpiry (s : State) (j i : Nat) : State :=
  match (s.lane j).expected[i]? with
  | none => s
  | some e => if e.state = .inTransit ∧ e.timer.isSome = true then s.loseEntry j i e else s

/-! ## Clearing and release (R112 to R114) -/

/-- LANE-CLEAR-FOREIGN (R112). -/
def laneClearAnswer (j : Nat) (s : State) : Answer :=
  if 23 < j then s.refuse .badArgument
  else ⟨(s.onLane j (fun l => { l with foreign := 0 })).judgeLane j, .done, be1 (s.lane j).foreign⟩

/-- The lane's LANE-OPEN is queued and the lane is OPENING (R114). -/
def State.openLane (s : State) (j : Nat) : State :=
  (s.queueField (.lane j) (.laneOpen j)).onLane j (fun l => { l with state := .opening })

/-- The bound orders of a lane that are not COMPLETE, CANCELLED or SHORT-CLOSED. -/
def State.unfinishedOrders (s : State) (j : Nat) : List Nat :=
  (s.lane j).bound.filter (fun id => match s.findOrder id with
    | some o => !o.state.finished
    | none => false)

/-- Short-close an order as part of a forced release (R114, R47). -/
def State.forceClose (s : State) (id : Nat) : State :=
  match s.findOrder id with
  | some o => if o.state.finished then s else s.closeOrder o .shortClosed
  | none => s

/-- The forced release of a FILLING lane (R114; log entry 26). -/
def State.forceRelease (s : State) (j : Nat) : State :=
  (((s.lane j).bound.foldl State.forceClose
    ((s.onLane j (fun l => { l with closed := true })).judgeLane j))).openLane j

/-- LANE-RELEASE (R114). -/
def laneReleaseAnswer (j : Nat) (force : Bool) (s : State) : Answer :=
  if 23 < j then s.refuse .badArgument
  else if s.lanes.conveyor.isNone then s.refuse .refusedState
  else
    match (s.lane j).state with
    | .free | .opening => s.refuse .refusedState
    | .filling =>
      if force then ⟨s.forceRelease j, .done, be1 (s.unfinishedOrders j).length⟩ else s.refuse .refusedState
    | .ready => ⟨s.openLane j, .done, []⟩

/-! ## Emptying (R115, R106) -/

/-- An order becomes QUEUED with lane `j` (R29, R106). -/
def State.queueOrder (s : State) (j id : Nat) : State :=
  (s.onOrder id (fun o => { o with lane := some j })).setOrderState id .queued

/-- A freed lane takes the first waiting order, with its waiting chain when it is a member of one (R106). -/
def State.offerTo (s : State) (j : Nat) (o : Order) : State :=
  match s.lanes.waiting.find? (fun w => w.members.contains o.id) with
  | some w =>
    w.members.foldl (fun t id => t.queueOrder j id)
      ((s.setWaiting (s.lanes.waiting.filter (fun x => !x.members.contains o.id))).bindLane j w.chain
        w.closed w.members w.quantity)
  | none => (s.bindLane j 0 true [o.id] o.total).queueOrder j o.id

/-- A lane that becomes FREE is offered to the waiting orders, and a free Planner takes an order up (R106). -/
def State.offerLane (s : State) (j : Nat) : State :=
  match s.intakeList.find? (fun o => o.state = .laneWait) with
  | none => s
  | some o => (s.offerTo j o).takeUp

/-- The LANE-EMPTIED notice of a lane (R115). -/
def Lane.emptiedNotice (j : Nat) (l : Lane) : Notice :=
  .laneEmptied j l.chain (l.countIn .arrived) (l.countIn .late) (l.countIn .lost) (l.countIn .inTransit)
    l.foreign

/-- LANE-EMPTY of an OPENING lane (R115, R50). -/
def State.emptyLane (s : State) (j : Nat) : State :=
  if (s.lane j).state = .opening then
    let told := s.notify ((s.lane j).emptiedNotice j)
    let freed := told.setOrders (told.planner.orders.filter (fun o => !(s.lane j).bound.contains o.id))
    (freed.setLane j {}).offerLane j
  else s

/-- A returned LANE-OPEN (R115). -/
def State.openFailed (s : State) (j : Nat) : State :=
  if (s.lane j).state = .opening then
    let x : LaneState := if s.laneFit j then .ready else .filling
    (s.onLane j (fun l => { l with state := x })).notify (.laneOpenFailed j x)
  else s

end Sys2Proof.Machine
end

