-- ==== Sys2Proof/Machine/Queries.lean ====
section
/-! DEFINITION. IDENTIFY and the twenty record kinds of QUERY (R166 to R169; log entries 10 to 12 and
49 to 52). -/

namespace Sys2Proof.Machine

/-! ## IDENTIFY (R166) -/

/-- The enables of the seven classes, in their order; SYSTEM is always yes. -/
def Enables.bytes (e : Enables) : List Byte :=
  yesNo e.order ++ yesNo e.lane ++ yesNo e.port ++ yesNo e.motion ++ yesNo e.audit ++ yesNo e.stock ++ yesNo true

/-- The carousels not OFFLINE. -/
def State.inService (s : State) : Nat :=
  (carouselNumbers.filter (fun k => (s.carousel k).state ≠ .offline)).length

/-- The reply data of IDENTIFY (R166). 'open or not' of the load session is sent as a yes or no, 1 for open.
DESIGN CHOICE (log entry 55). The part code takes two bytes and the revision one. DESIGN CHOICE (log entry 60). -/
def State.identity (s : State) : List Byte :=
  be2 2610 ++ be1 1 ++ be1 s.address ++ be1 (strapCode s.serviceHigh) ++ be1 s.policy.active.code
    ++ yesNo s.policy.session.isSome ++ yesNo s.stock.calendar.isSet ++ be1 s.inService
    ++ be1 s.planner.orders.length ++ be1 s.command.intake.length ++ be1 s.ring.notices.length
    ++ s.command.enables.bytes ++ be2 s.command.intakeOverruns ++ be2 (min 65535 (s.now / 1000))

/-- IDENTIFY (R166). -/
def identifyAnswer (s : State) : Answer := ⟨s, .done, s.identity⟩

/-! ## Sequences (R167; 10, QUERY sequences) -/

/-- The next start position, in one byte or in two; all ones when none follows. -/
def next1 (start per total : Nat) : List Byte := be1 (if start + per < total then start + per else 255)
def next2 (start per total : Nat) : List Byte := be2 (if start + per < total then start + per else 65535)

/-- The whole members a reply carries from its start position. -/
def members {α : Type} (bytes : α → List Byte) (start per : Nat) (xs : List α) : List Byte :=
  ((xs.drop start).take per).flatMap bytes

/-- A sequence whose start position takes one byte. -/
def sequence1 {α : Type} (bytes : α → List Byte) (start per : Nat) (xs : List α) : List Byte :=
  next1 start per xs.length ++ members bytes start per xs

/-- A sequence whose start position takes two bytes. -/
def sequence2 {α : Type} (bytes : α → List Byte) (start per : Nat) (xs : List α) : List Byte :=
  next2 start per xs.length ++ members bytes start per xs

/-- Eight places of two bytes, with `none` for the unused ones. -/
def eightPlaces (unused : Nat) (xs : List Nat) : List Byte :=
  (List.range 8).flatMap (fun i => be2 (xs.getD i unused))

/-! ## SLOT, TAG, STOCK, ARTICLE-LIST, CALENDAR -/

/-- The hold reason of a slot. -/
def Content.holdCode : Content → Option Nat
  | .held h => some h.code
  | .empty | .inbound _ | .stored _ | .reserved _ _ _ | .blocked => none

/-- The reservation of a slot: order id and line number, 0 when absent. -/
def Content.reservationBytes : Content → List Byte
  | .reserved _ o n => be2 o ++ be1 n
  | .empty | .inbound _ | .stored _ | .held _ | .blocked => be2 0 ++ be1 0

/-- Article and date code of a slot; 0 when absent. -/
def goodsBytes : Option Goods → List Byte
  | some g => be3 g.article ++ dateBytes g.ordinal
  | none => be3 0 ++ be1 0 ++ be1 0

/-- The SLOT record (R1). DESIGN CHOICE (log entry 51): mapped or unmapped is sent as a yes or no. -/
def State.slotRecord (s : State) (i : Nat) : List Byte :=
  let x := s.slot i
  be1 x.content.code ++ optTag x.content.tag ++ goodsBytes x.content.goods ++ x.content.reservationBytes
    ++ optEnum x.content.holdCode ++ yesNo x.fresh ++ yesNo (s.mapped i)

/-- The tags recorded (R7). -/
def State.tagCount (s : State) : Nat := (s.stock.slots.filter (fun e => e.2.content.tag.isSome)).length

/-- The STOCK record. -/
def State.stockRecord (s : State) : List Byte :=
  be2 s.stockKeys.length ++ be2 s.keyDemand ++ be2 s.tagCount

def Member.bytes (m : Member) : List Byte := be2 m.slot ++ be2 m.ordinal

/-- The CALENDAR record (R9). -/
def Calendar.bytes (c : Calendar) : List Byte := be1 c.week ++ be1 c.year ++ be2 c.ordinal ++ yesNo c.isSet

/-! ## CAROUSEL, STOPS, STOP -/

/-- Steps of a move; free while not reckoned (log entry 25). -/
def stepsByte : Option Leg → List Byte
  | some l => be1 l.steps
  | none => [Config.unreckonedSteps]

/-- The current move of a carousel record, an optional group. -/
def moveBytes : Option Move → List Byte
  | none => optEnum none ++ [0, 0, 0]
  | some m =>
    be1 m.purpose.code ++ be1 m.target ++ optEnum (m.leg.map (fun l => l.direction.code)) ++ stepsByte m.leg

/-- The running or stopped mark of a timer: yes for running (DESIGN CHOICE outside ORDER, log entry 51). -/
def timerMark (t : Option Nat) : List Byte := yesNo t.isSome

/-- The CAROUSEL record (R51). -/
def Carousel.bytes (c : Carousel) : List Byte :=
  be1 c.state.code ++ be1 c.carriers ++ be1 c.positions ++ yesNo c.bidirectional
    ++ opt1 c.drive ++ opt1 c.port ++ opt1 c.gate ++ be1 c.atPort ++ moveBytes c.move
    ++ yesNo c.curtainBroken ++ be2 c.estimate ++ yesNo c.overrideOn ++ be2 c.overrideValue
    ++ be2 c.dwell ++ be2 c.sweepDelay ++ be1 c.bypassLimit ++ optEnum (c.cause.map FaultCause.code)
    ++ opt1 c.lastCommander ++ be1 (c.lastFault.getD 0) ++ yesNo c.statusSinceFault
    ++ timerMark c.moveTimer ++ timerMark c.dwellTimer ++ timerMark c.sweepTimer ++ be1 c.stops.length

/-- A member of STOPS. -/
def Stop.summary (x : Stop) : List Byte :=
  be1 x.carrier ++ be2 x.creation ++ be1 x.bypass ++ be1 x.tasks.length

def PickTask.bytes (t : PickTask) : List Byte :=
  be2 t.order ++ be1 t.line ++ be1 t.position ++ be1 t.lane ++ be1 t.window

/-- The STOP record (R56): the stop as STOPS gives it, its task count included, then its tasks; chapter 10 gives no layout
of it. DESIGN CHOICE (log entry 56). -/
def Stop.bytes (x : Stop) : List Byte := x.summary ++ x.tasks.flatMap PickTask.bytes

/-! ## PORT -/

/-- The pending put-away of a port record, an optional group (R78). -/
def putawayBytes : Option Putaway → List Byte
  | some a => be4 a.tyre.tag ++ be3 a.tyre.article ++ be2 a.tyre.ordinal ++ be2 a.slot
  | none => be4 0 ++ be3 0 ++ be2 0 ++ be2 0

/-- A lane, or none, for each of the eight positions, in five bytes: five bits for a position, position 0 in the most
significant, holding the low bits of the byte R180 gives the lane, so that none is 31. DESIGN CHOICE (log entry 57). -/
def packedLanes (lane : Nat → Option Nat) : List Byte :=
  let n := (List.range 8).foldl (fun n x => n * 32 + (lane x).getD 255 % 32) 0
  be1 (n / 4294967296) ++ be4 n

/-- The presented carrier, the task positions with their lanes, the stop's creation sequence and bypass count, and the
done marks (R78, R167; log entry 57). -/
def Presentation.bytes (pr : Presentation) : List Byte :=
  be1 pr.carrier ++ packedLanes (fun x => (pr.tasks.find? (fun t => t.position = x)).map PickTask.lane)
    ++ be2 pr.creation ++ be1 pr.bypass ++ packedLanes (fun x => sparseFind x pr.done)

/-- The presentation, an optional group: without a carrier its other bytes are 0 (R167, R180). A port that is PLACING
has a presented carrier, and no task and no mark (log entry 57). -/
def Port.presentationGroup (p : Port) : List Byte :=
  match p.work with
  | .presenting pr => pr.bytes
  | .placing c => Presentation.bytes ⟨c, [], 0, 0, []⟩
  | .idle | .calling => be1 255 ++ List.replicate 13 0

/-- The PORT record (R78). -/
def Port.bytes (p : Port) : List Byte :=
  be1 p.mode.code ++ optEnum (p.pendingMode.map PortModeName.code) ++ be1 p.work.code ++ yesNo p.autoCall
    ++ yesNo p.emptyHints ++ be1 p.underrunDisplay.code ++ be1 p.underrunReport.code ++ be2 p.underrunCount
    ++ yesNo p.workSinceReport ++ be2 p.strayCount ++ be2 p.wrongTyreCount ++ be2 p.timeout
    ++ putawayBytes p.putaway ++ yesNo p.absent ++ p.display.bytes ++ timerMark p.timer ++ p.presentationGroup

/-! ## ORDER -/

/-- The shortage policy and its hold limit; R27 gives no limit under SHIP-SHORT and R180 no absent duration, and the model
sends 0 there. DESIGN CHOICE (log entry 58). -/
def Shortage.bytes : Shortage → List Byte
  | .shipShort => be1 0 ++ be2 0
  | .hold limit => be1 1 ++ be2 limit

/-- The fields of an order record (R27). Its lines follow as the members of the reply, and no count of them is sent.
DESIGN CHOICE (log entry 66). -/
def Order.bytes (o : Order) : List Byte :=
  be2 o.id ++ be1 o.source ++ be1 o.priority ++ be1 o.chain ++ yesNo o.continues ++ o.shortage.bytes
    ++ be1 o.state.code ++ opt1 o.lane ++ be2 o.acceptance ++ be1 o.unsettled

/-- What a line captured, an optional group. -/
def capturedBytes : Option Captured → List Byte
  | some c => be1 c.window ++ be2 c.maxAge ++ yesNo c.sameCarousel
  | none => be1 255 ++ be2 0 ++ yesNo false

/-- The picked extremes, least then greatest, an optional group: absent, the least is sent as 65,535 and the
greatest as 0 (R180). -/
def extremeBytes : Option (Nat × Nat) → List Byte
  | some (lo, hi) => be2 lo ++ be2 hi
  | none => be2 65535 ++ be2 0

/-- The replan mark as a yes or no, and its excluded carousel. DESIGN CHOICE (log entry 52): 255 where there is no
mark. -/
def markBytes : Option ReplanMark → List Byte
  | some m => yesNo true ++ opt1 m.excluded
  | none => yesNo false ++ be1 255

/-- A line of ORDER, in 38 bytes (R31). -/
def Line.bytes (l : Line) : List Byte :=
  be1 l.number ++ be3 l.article ++ be1 l.quantity ++ be1 l.rule.code ++ capturedBytes l.captured
    ++ yesNo l.fellBack ++ eightPlaces 65535 (l.members.map Member.slot) ++ be1 l.reservedCount
    ++ be1 l.picked ++ extremeBytes l.extremes ++ be1 l.short ++ be1 l.state.code ++ markBytes l.mark
    ++ timerMark l.wait

/-- The next line to return after the line at a start position counted from 0; 255 when none follows. -/
def nextLine (start total : Nat) : List Byte := be1 (if start + 1 < total then start + 2 else 255)

/-- The ORDER reply: the record, the next line, and the line asked for; line 0 reads as line 1. -/
def Order.reply (o : Order) (first : Nat) : List Byte :=
  o.bytes ++ nextLine (first - 1) o.lines.length ++ members Line.bytes (first - 1) 1 o.lines

/-! ## LANE, CHAIN-WAIT, AUDIT -/

def Entry.bytes (e : Entry) : List Byte := be4 e.tag ++ be2 e.order ++ be1 e.state.code

/-- The fields of a lane record (R101). DESIGN CHOICE (log entry 49): the bound orders as a count byte and eight
places of two bytes, the unused ones 0, and the expected list as its length. -/
def Lane.bytes (l : Lane) : List Byte :=
  be1 l.state.code ++ be1 l.chain ++ yesNo l.closed ++ be1 l.bound.length ++ eightPlaces 0 l.bound
    ++ be1 l.quantity ++ be1 l.expected.length ++ be1 l.foreign

/-- A member of CHAIN-WAIT, in 20 bytes (R103). -/
def WaitingChain.bytes (w : WaitingChain) : List Byte :=
  be1 w.chain ++ yesNo w.closed ++ be1 w.quantity ++ be1 w.members.length ++ eightPlaces 0 w.members

/-- The AUDIT record (R117), with the number of entries in the log. The discrepancy counts stand where R117 names them,
before the reports since sweep. DESIGN CHOICE (log entry 59). -/
def AuditRecord.bytes (a : AuditRecord) (entries : Nat) : List Byte :=
  be1 a.mode.code ++ be2 a.enabled.toNat ++ be1 a.quota ++ yesNo a.autoCorrect ++ opt1 a.cursor
    ++ (List.range 16).flatMap (fun z => be1 (a.count z)) ++ be2 a.reports ++ be1 entries

/-! ## BANKS, TABLE, COUNTERS -/

/-- VALID is 0, INVALID 1 (R151). -/
def validityByte (v : Bool) : List Byte := be1 (if v then 0 else 1)

def Bank.validityBytes (b : Bank) : List Byte :=
  validityByte b.trafficValid ++ validityByte b.articleValid ++ validityByte b.profileValid

/-- The session record (R154), an optional group. DESIGN CHOICE (log entry 50): that its timer runs is sent as a
yes, last. -/
def sessionBytes : Option Session → List Byte
  | none => optEnum none ++ [0, 0] ++ be4 0 ++ be1 0 ++ be2 0 ++ yesNo false
  | some x =>
    be1 x.table.code ++ be1 x.mode.code ++ be1 x.owner ++ be4 x.check.toNat
      ++ be1 (if x.failed then 1 else 0) ++ be2 x.count ++ yesNo true

/-- The BANKS record. -/
def Policy.bytes (p : Policy) : List Byte :=
  be1 p.active.code ++ p.bankA.validityBytes ++ p.bankB.validityBytes ++ sessionBytes p.session

/-- A bank by its name. -/
def Policy.bank (p : Policy) : BankName → Bank
  | .a => p.bankA
  | .b => p.bankB

def articleBytes (e : Nat × Article) : List Byte := be3 e.1 ++ be1 e.2.profile ++ be2 e.2.zones.toNat

def profileBytes (id : Nat) (p : Profile) : List Byte :=
  be1 id ++ be1 p.window ++ be2 p.maxAge ++ yesNo p.substitute ++ yesNo p.sameCarousel
    ++ be1 p.strategy.code ++ be1 (if p.refuseAhead then 1 else 0)

/-- A stretch of a table (R149). -/
def Bank.stretch (b : Bank) (start : Nat) : TableName → List Byte
  | .traffic => sequence1 (fun kind => be1 (sparseGet .pass kind b.traffic : Disposition).code) start 48 (List.range 64)
  | .article => sequence2 articleBytes start 8 b.articles
  | .profile => sequence1 (fun id => profileBytes id (sparseGet {} id b.profiles)) start 6 (List.range 16)

/-- The COUNTERS record (R169). -/
def State.counterBytes (s : State) : List Byte :=
  let c := s.ring.counters
  be2 c.checkErrors ++ be2 c.frameErrors ++ be2 c.hopExpiries ++ be2 c.forwardOverruns ++ be2 c.returns
    ++ be2 c.guarded ++ be2 c.discards ++ be2 s.command.intakeOverruns ++ be2 s.command.noticesLost

/-! ## QUERY (R167, R168) -/

/-- What a query finds: its data, or the status of its refusal. -/
def found (data : List Byte) : Except Status (List Byte) := .ok data

/-- A record that may not exist. -/
def foundOr {α : Type} (o : Option α) (f : α → List Byte) : Except Status (List Byte) :=
  match o with
  | some x => .ok (f x)
  | none => .error .noSuchRecord

/-- A selector in range, or BAD-ARGUMENT. -/
def inRange (ok : Bool) (r : Except Status (List Byte)) : Except Status (List Byte) :=
  if ok then r else .error .badArgument

/-- A value of one carrier after another from the first carrier (ZONE-MAP, STREAKS). -/
def carrierValues (n first : Nat) (value : Nat → Nat) : List Byte :=
  sequence1 (fun x => be1 (value x)) first 48 (List.range n)

/-- The ARTICLE-LIST reply. -/
def articleListReply (start : Nat) (xs : List Member) : List Byte :=
  be2 xs.length ++ sequence2 Member.bytes start 12 xs

/-- The article's list, when it has a key (R6). -/
def State.keyedList (s : State) (a : Nat) : Option (List Member) :=
  if (s.articleList a).isEmpty then none else some (s.articleList a)

/-- The TABLE query: the bank and the table stand in the last two bytes of selector A (log
entry 43). -/
def State.tableReply (s : State) (a b : Nat) : Except Status (List Byte) :=
  match bankOf? (a / 256 % 256), tableOf? (a % 256) with
  | some bank, some t => .ok ((s.policy.bank bank).stretch b t)
  | _, _ => .error .badArgument

/-- What QUERY answers for a record kind and its selectors. -/
def State.queryRecord (s : State) (a b : Nat) : Nat → Except Status (List Byte)
  | 0 => inRange (a ≤ 6143) (found (s.slotRecord a))
  | 1 => foundOr (s.tagSlot a) (fun i => be2 i ++ be1 (s.slot i).content.code)
  | 2 => found s.stockRecord
  | 3 => foundOr (s.keyedList a) (articleListReply b)
  | 4 => found s.stock.calendar.bytes
  | 5 => inRange (a ≤ 7) (found (s.carousel a).bytes)
  | 6 => inRange (a ≤ 7 && b < (s.carousel a).carriers)
      (found (carrierValues (s.carousel a).carriers b (s.carousel a).zone))
  | 7 => inRange (a ≤ 7) (found (be1 (s.carousel a).stops.length ++ sequence1 Stop.summary b 10 (s.carousel a).stops))
  | 8 => inRange (a ≤ 7 && b < (s.carousel a).carriers)
      (foundOr ((s.carousel a).stops.find? (fun x => x.carrier = b)) Stop.bytes)
  | 9 => inRange (a ≤ 7) (found (s.port a).bytes)
  | 10 => found (be1 s.planner.orders.length ++ sequence1 (fun o => be2 o.id) a 26 s.planner.orders)
  | 11 => foundOr (s.findOrder a) (fun o => o.reply b)
  | 12 => inRange (a ≤ 23) (found ((s.lane a).bytes ++ sequence1 Entry.bytes b 4 (s.lane a).expected))
  | 13 => found (opt1 s.lanes.conveyor ++ be2 s.lanes.transitTimeout)
  | 14 => found (be1 s.lanes.waiting.length ++ sequence1 WaitingChain.bytes a 2 s.lanes.waiting)
  | 15 => inRange (a ≤ 7) (found ((s.auditRecord a).bytes s.audit.log.length))
  | 16 => inRange (a ≤ 7 && b < (s.carousel a).carriers)
      (found (carrierValues (s.carousel a).carriers b (s.auditRecord a).streak))
  | 17 => found s.policy.bytes
  | 18 => s.tableReply a b
  | 19 => found s.counterBytes
  | _ => .error .badArgument

/-- QUERY (R167, R168). -/
def queryAnswer (kind a b : Nat) (s : State) : Answer :=
  match s.queryRecord a b kind with
  | .ok data => ⟨s, .done, data⟩
  | .error st => s.refuse st

end Sys2Proof.Machine
end

