-- ==== Sys2Proof/Machine/PortEvents.lean ====
section
/-! DEFINITION. The Port Sequencers (04): settings and modes, scans, placements, the ends of presentations and
put-aways, what a Motion Unit tells its port (R79, R80, R83, R87, R89 to R99). -/

namespace Sys2Proof.Machine

/-! ## Settings and modes (R79, R80) -/

/-- The settings of SET-PORT, with the absent flag cleared (R79). -/
def Port.withSettings (p : Port) (autoCall emptyHints : Bool) (d : UnderrunDisplay) (r : UnderrunReport)
    (timeout : Nat) : Port :=
  { p with autoCall := autoCall, emptyHints := emptyHints, underrunDisplay := d, underrunReport := r,
           timeout := timeout, absent := false }

/-- The port is PLACING. -/
def Port.isPlacing (p : Port) : Bool :=
  match p.work with
  | .placing _ => true
  | .idle | .calling | .presenting _ => false

/-- The port is PRESENTING. -/
def Port.isPresenting (p : Port) : Bool :=
  match p.work with
  | .presenting _ => true
  | .idle | .calling | .placing _ => false

/-- SET-PORT (R79). -/
def setPortAnswer (k : Nat) (autoCall emptyHints : Bool) (display report timeout : Nat) (s : State) : Answer :=
  match underrunDisplayOf? display, underrunReportOf? report with
  | some d, some r =>
    if 7 < k then s.refuse .badArgument
    else
      let t := s.onPort k (fun p => p.withSettings autoCall emptyHints d r (clamp 10 900 timeout))
      let shown := if (t.port k).isPlacing then t.rebuild k else t
      ⟨if autoCall && !(s.port k).autoCall then shown.makeCall k else shown,
        if clamp 10 900 timeout = timeout then .done else .clamped, []⟩
  | _, _ => s.refuse .badArgument

/-- The marks of the PORT-MODE reply: APPLIED, then DEFERRED (R80). -/
def appliedMark : List Byte := be1 0
def deferredMark : List Byte := be1 1

/-- PORT-MODE (R80). -/
def portModeAnswer (k mode : Nat) (s : State) : Answer :=
  match portModeOf? mode with
  | none => s.refuse .badArgument
  | some m =>
    if 7 < k then s.refuse .badArgument
    else if (s.carousel k).port.isNone || (s.port k).absent then s.refuse .refusedState
    else if (s.port k).work = .idle then
      ⟨((s.onPort k (fun p => { p with mode := m, pendingMode := none })).darken k .none).autoCall k, .done,
        appliedMark⟩
    else
      ⟨s.onPort k (fun p => { p with pendingMode := if m = p.mode then none else some m }), .done,
        deferredMark⟩

/-! ## Stray reports and refused scans (R89, R99) -/

/-- A stray report is counted (R99). -/
def State.stray (s : State) (k : Nat) : State :=
  s.onPort k (fun p => { p with strayCount := saturate 65535 p.strayCount })

/-- A stray scan that shows WAIT (R99). -/
def State.strayWait (s : State) (k : Nat) : State := (s.stray k).setMessage k .wait

/-- A refused scan (R89). -/
def State.refuseScan (s : State) (k : Nat) : State :=
  (s.onPort k (fun p => { p with wrongTyreCount := saturate 65535 p.wrongTyreCount })).setMessage k .wrongTyre

/-! ## Scans while PRESENTING (R89 to R91) -/

/-- The profile's substitute flag for an article in the active bank (R91). -/
def State.substitutes (s : State) (article : Nat) : Bool :=
  match s.article article with
  | none => false
  | some a => (s.profile a.profile).substitute

/-- The article a task's line records. -/
def State.taskArticle (s : State) (t : PickTask) : Option Nat :=
  (s.findLine t.order t.line).map (fun l => l.article)

/-- The task a tyre of an article may be substituted for: the one at the lowest position whose line
records that article (R91). -/
def State.taskToGive (s : State) (pr : Presentation) (article : Nat) : Option PickTask :=
  if s.substitutes article then pr.tasks.find? (fun t => s.taskArticle t = some article) else none

/-- A scanned tyre in the STORED slot `u` without a task: a substitution request, or a refusal (R91). -/
def State.considerSubstitution (s : State) (k : CarouselNo) (pr : Presentation) (u article : Nat) : State :=
  match s.taskToGive pr article with
  | some t => s.hand [.substitutionRequest k u (slotIndex k pr.carrier t.position)]
  | none => s.refuseScan k

/-- The task of a presentation at a position. -/
def Presentation.taskAt (pr : Presentation) (x : Nat) : Option PickTask :=
  pr.tasks.find? (fun t => t.position = x)

/-- A scanned tag recorded at slot `i` of the presented carrier (R89). -/
def State.scanOnCarrier (s : State) (k : CarouselNo) (pr : Presentation) (tag i : Nat) : State :=
  match pr.taskAt (slotPosition i) with
  | some t => s.hand [.pickRequest k tag t.order t.line]
  | none =>
    match (s.slot i).content with
    | .stored tyre => s.considerSubstitution k pr i tyre.article
    | .empty | .inbound _ | .reserved _ _ _ | .held _ | .blocked => s.refuseScan k

/-- A SCAN of a tag while PRESENTING (R89). -/
def State.presentScan (s : State) (k : CarouselNo) (pr : Presentation) (tag : Nat) : State :=
  match s.tagSlot tag with
  | none => s.refuseScan k
  | some i =>
    if slotCarousel i = k ∧ slotCarrier i = pr.carrier then s.scanOnCarrier k pr tag i else s.refuseScan k

/-- A pick request taken at the Stock Unit (R19, R90). -/
def State.takePick (s : State) (k tag order line : Nat) : State :=
  match s.pick tag order line with
  | some t => t
  | none => s.refuseScan k

/-- A substitution request taken at the Stock Unit (R20, R91). -/
def State.takeSubstitution (s : State) (k u r : Nat) : State :=
  match s.substitute u r with
  | some t => t
  | none => s.refuseScan k

/-! ## Put-away (R95, R96) -/

/-- The message of a put-away's refusal (R95). -/
def PutawayOutcome.message : PutawayOutcome → Message
  | .badDate | .unknownArticle | .dateAhead => .wrongTyre
  | .duplicateTag => .duplicateTag
  | .noSpace | .storeFull => .storeFull

/-- The PUTAWAY-ENDED notice of a pending put-away (R95; log entry 13). -/
def Putaway.endedNotice (a : Putaway) (k slot : Nat) (cause : PutawayCause) (o : Option PutawayOutcome) : Notice :=
  .putawayEnded k a.tyre.tag a.tyre.article (weekOf a.tyre.ordinal) (yearOf a.tyre.ordinal) (some slot) cause o

/-- The pending put-away and the presentation timer are removed. -/
def State.clearPutaway (s : State) (k : Nat) : State :=
  s.onPort k (fun p => { p with putaway := none, timer := none })

/-- A placement starts (R96, AT-PORT). -/
def State.startPlacing (s : State) (k carrier : Nat) : State :=
  (s.onPort k (fun p => { p with
      work := .placing carrier, timer := some (p.timeout * 1000),
      display := { p.display with message := .none } })).rebuild k

/-- A put-away that cannot start its carousel (R96, UNAVAILABLE or BUSY). -/
def State.putawayUnavailable (s : State) (k : Nat) (a : Putaway) : State :=
  ((((s.withdraw a.slot).clearPutaway k).setMessage k .wait).notify
    (a.endedNotice k a.slot .unavailable none)).toIdle k

/-- A store call for the pending slot's carrier (R96). -/
def State.storeCall (s : State) (k : Nat) : State :=
  match (s.port k).putaway with
  | none => s
  | some a =>
    let r := s.storeCallRequest k (slotCarrier a.slot)
    match r.2 with
    | .atPort _ => r.1.startPlacing k (slotCarrier a.slot)
    | .called => r.1.onPort k (fun p => { p with work := .calling })
    | .unavailable | .busy => r.1.putawayUnavailable k a
    | .underrun => r.1

/-- The pending put-away takes a chosen slot. -/
def State.setPutaway (s : State) (k : Nat) (a : Putaway) : State :=
  s.onPort k (fun p => { p with putaway := some a })

/-- A SCAN while IDLE in STORE mode (R95). -/
def State.beginPutaway (s : State) (k tag article week year : Nat) : State :=
  let r := s.putawayChoice k tag article week year
  match r.2 with
  | .chosen i p => (r.1.setPutaway k ⟨⟨tag, article, p⟩, i⟩).storeCall k
  | .refused o =>
    (r.1.setMessage k o.message).notify
      (.putawayEnded k tag article week year none .refused (some o))

/-- SCAN (R89, R95, R99). -/
def State.scanTag (s : State) (k : CarouselNo) (tag article week year : Nat) : State :=
  if tag = 0 then s.stray k
  else
    match (s.port k).work, (s.port k).mode with
    | .presenting pr, _ => s.presentScan k pr tag
    | .idle, .store => s.beginPutaway k tag article week year
    | .idle, .pick | .calling, .pick | .calling, .store | .placing _, .pick | .placing _, .store =>
      s.strayWait k
    | .idle, .closed | .calling, .closed | .placing _, .closed => s.stray k

/-! ## Placements (R97) -/

/-- PLACED while PLACING at a position below P (R97). -/
def State.placeAt (s : State) (k carrier position : Nat) : State :=
  match (s.port k).putaway with
  | none => s
  | some a =>
    match s.placement a.slot (slotIndex k carrier position) with
    | some t => (t.clearPutaway k).toIdle k
    | none => s

/-- PLACED (R97, R99). -/
def State.placedReport (s : State) (k position : Nat) : State :=
  match (s.port k).work with
  | .placing c => if position < (s.carousel k).positions then s.placeAt k c position else s.stray k
  | .idle | .calling | .presenting _ => s.stray k

/-! ## Presentations and placements broken off (R87, R93, R94, R97) -/

/-- A presentation ends with its remaining tasks handed back, and a message (R93, R94). -/
def State.breakPresentation (s : State) (k : Nat) (pr : Presentation) (bypass : Nat) (m : Message) : State :=
  (((s.returnStop k (pr.toStop bypass)).onPort k (fun p => { p with timer := none })).darken k m)

/-- The pending put-away is withdrawn and ends with a cause (R87, R96, R97). -/
def State.abandonPutaway (s : State) (k : Nat) (cause : PutawayCause) : State :=
  match (s.port k).putaway with
  | none => s
  | some a => ((s.withdraw a.slot).clearPutaway k).notify (a.endedNotice k a.slot cause none)

/-- SKIP (R93). -/
def State.skipCarrier (s : State) (k : Nat) : State :=
  match (s.port k).work with
  | .presenting pr => (s.breakPresentation k pr (pr.bypass + 1) .none).toIdle k
  | .idle | .calling | .placing _ => s

/-- The presentation timer expires (R93, R97; log entry 38); a stopped timer does not (log entry 5). -/
def State.presentationExpiry (s : State) (k : Nat) : State :=
  match (s.port k).timer with
  | none => s
  | some _ =>
    match (s.port k).work with
    | .presenting pr =>
      ((s.breakPresentation k pr (pr.bypass + 1) .none).notify
        (.presentationTimeout k pr.carrier pr.tasks.length pr.creation)).toIdle k
    | .placing _ => ((s.abandonPutaway k .timeout).darken k .none).toIdle k
    | .idle | .calling => s

/-- CARRIER-LEFT (R94, R97). -/
def State.carrierLeft (s : State) (k : Nat) : State :=
  match (s.port k).work with
  | .presenting pr => (s.breakPresentation k pr pr.bypass .moveInProgress).toIdle k
  | .placing _ => ((s.abandonPutaway k .carrierLeft).darken k .moveInProgress).toIdle k
  | .idle | .calling => s

/-- The work in hand at an absent port ends (R87, item 2). -/
def State.dropWork (s : State) (k : Nat) : State :=
  match (s.port k).work with
  | .presenting pr => s.returnStop k (pr.toStop pr.bypass)
  | .placing _ | .calling => s.abandonPutaway k .absent
  | .idle => s

/-- A returned DISPLAY: the terminal is absent (R87). -/
def State.portAbsent (s : State) (k : Nat) : State :=
  if (s.port k).absent then s
  else
    ((((s.onPort k (fun p => { p with absent := true })).dropWork k).onPort k (fun p => { p with
        timer := none, work := .idle, mode := .closed, pendingMode := none })).darken k .none).notify
      (.portAbsent k (s.carousel k).port)

/-! ## What the Motion Unit tells its port (R83, R96) -/

/-- ARRIVAL of a carrier, with the called stop if it stands (R83, R96). -/
def State.arrivalAt (s : State) (k carrier : Nat) (stop : Option Stop) : State :=
  match (s.port k).work, (s.port k).mode, stop with
  | .calling, .pick, some x => s.startPresentation k x
  | .calling, .pick, none => s.toIdle k
  | .calling, .store, _ =>
    match (s.port k).putaway with
    | none => s
    | some a => if slotCarrier a.slot = carrier then s.startPlacing k carrier else s.storeCall k
  | _, _, some x => s.returnStop k x
  | _, _, none => s

/-- CALL-FAILED (R83, R96). -/
def State.callFailed (s : State) (k : Nat) : State :=
  match (s.port k).work with
  | .calling => (s.abandonPutaway k .callFailed).toIdle k
  | .idle | .presenting _ | .placing _ => s

/-! ## What the Stock Unit tells the port (R98) -/

/-- A re-choice gave slot `i` (R98). -/
def State.rechoose (s : State) (k : Nat) (a : Putaway) (i : Nat) : State :=
  let t := s.setPutaway k { a with slot := i }
  match (s.port k).work with
  | .placing c =>
    if slotCarrier i = c then t.rebuild k
    else (t.onPort k (fun p => { p with work := .idle, timer := none })).storeCall k
  | .idle | .calling | .presenting _ => t

/-- The pending put-away was withdrawn (R98). -/
def State.withdrawnNotice (s : State) (k slot : Nat) : State :=
  match (s.port k).putaway with
  | none => s
  | some a =>
    if a.slot ≠ slot then s
    else
      let r := s.putawayChoice k a.tyre.tag a.tyre.article (weekOf a.tyre.ordinal) (yearOf a.tyre.ordinal)
      match r.2 with
      | .chosen i _ => r.1.rechoose k a i
      | .refused o =>
        (((r.1.clearPutaway k).setMessage k o.message).notify (a.endedNotice k a.slot .noSlot (some o))).toIdle k

/-- The pending record was moved by a FOREIGN move (R98). -/
def State.foundElsewhere (s : State) (k slot found : Nat) : State :=
  match (s.port k).putaway with
  | none => s
  | some a =>
    if a.slot ≠ slot then s
    else (((s.clearPutaway k).darken k .none).notify (a.endedNotice k found .foundElsewhere none)).toIdle k

end Sys2Proof.Machine
end

