-- ==== Sys2Proof/Machine/MotionEvents.lean ====
section
/-! DEFINITION. The Motion Units (03): configuration and service commands, reports of the drive and the
curtain, faults, yielding, sweeps and jogs (R52 to R55, R62 to R76). -/

namespace Sys2Proof.Machine

/-! ## Entering STANDING, FAULT and YIELDED (R65, R68, R72) -/

/-- All three timers of a carousel stopped. -/
def Carousel.timersStopped (c : Carousel) : Carousel :=
  { c with moveTimer := none, dwellTimer := none, sweepTimer := none }

/-- The port is told CALL-FAILED when a CALL or STORE-CALL is removed (R68, R72). -/
def State.tellFailed (s : State) (k : Nat) : Option Move → State
  | some ⟨.call, _, _⟩ | some ⟨.storeCall, _, _⟩ => s.callFailed k
  | some ⟨.sweep, _, _⟩ | some ⟨.jog, _, _⟩ | none => s

/-- What CAROUSEL-FAULT says of the move removed (R68). -/
def removedMove : Option Move → Option (Purpose × Nat)
  | some m => some (m.purpose, m.target)
  | none => none

/-- Entry into FAULT (R68). -/
def State.enterFault (s : State) (k : Nat) (cause : FaultCause) : State :=
  let move := (s.carousel k).move
  let stopped := (s.onCarousel k (fun c => { c.timersStopped with
      state := .fault, cause := some cause, move := none, statusSinceFault := false })).queueField
    (.drive k) .stop
  (stopped.tellFailed k move).notify (.carouselFault k cause (s.carousel k).atPort (removedMove move))

/-- A further cause at a carousel in FAULT (R68). -/
def State.refault (s : State) (k : Nat) (cause : FaultCause) : State :=
  (s.onCarousel k (fun c => { c with
      cause := some cause, statusSinceFault := c.statusSinceFault && cause ≠ .driveAbsent })).notify
    (.carouselFault k cause (s.carousel k).atPort none)

/-- A fault cause reaches a carousel (R68). -/
def State.faultReaches (s : State) (k : Nat) (cause : FaultCause) : State :=
  match (s.carousel k).state with
  | .standing | .moving | .interrupted | .curtainWait => s.enterFault k cause
  | .fault => s.refault k cause
  | .offline | .yielded => s

/-- A carousel yields to node `node` (R72). -/
def State.yieldTo (s : State) (k node : Nat) : State :=
  match (s.carousel k).state with
  | .standing | .moving | .interrupted | .curtainWait | .fault =>
    let move := (s.carousel k).move
    let yielded := (s.onCarousel k (fun c => { c.timersStopped with
        state := .yielded, cause := none, move := none })).withdrawField (.drive k)
    (yielded.tellFailed k move).notify (.carouselYielded k node)
  | .offline | .yielded => s

/-- A carousel becomes STANDING, and its port is told (R82; log entry 18). -/
def State.enterStanding (s : State) (k : Nat) : State :=
  (s.onCarousel k (fun c => { c with state := .standing })).autoCall k

/-! ## The carrier at port and the step time (R62, R63) -/

/-- The carrier at port takes a value; the port is told CARRIER-LEFT when it changes away from the carrier
the port serves (R62; log entry 38). -/
def State.setAtPort (s : State) (k carrier : Nat) : State :=
  let t := s.onCarousel k (fun c => { c with atPort := carrier })
  match (s.port k).servedCarrier with
  | some x => if (s.carousel k).atPort ≠ carrier ∧ carrier ≠ x then t.carrierLeft k else t
  | none => t

/-- A sample of the step time, and the estimate it gives (R63). -/
def Carousel.estimateAfter (c : Carousel) (interval : Nat) : Nat :=
  (7 * c.estimate + clamp 50 10000 interval + 4) / 8

/-- A POSITION of the current move is noted, whatever carrier it names (R63; log entry 44). -/
def Carousel.notes (now : Nat) (c : Carousel) : Carousel :=
  if c.state = .moving then
    { c with
      estimate := if 2 ≤ c.positionsSeen then c.estimateAfter (now - c.lastPositionAt) else c.estimate,
      positionsSeen := saturate 2 c.positionsSeen, lastPositionAt := now }
  else c

/-- POSITION (R62, R63). -/
def State.positionReport (s : State) (k carrier : Nat) : State :=
  let noted := s.onCarousel k (Carousel.notes s.now)
  if carrier < (s.carousel k).carriers then noted.setAtPort k carrier
  else
    match (s.carousel k).state with
    | .standing | .moving | .interrupted | .curtainWait => noted.enterFault k .positionMismatch
    | .offline | .fault | .yielded => s

/-! ## Completed moves (R65) -/

/-- The purpose's owner is told that a move completed (R65). -/
def State.tellOwner (s : State) (k : Nat) (m : Move) : State :=
  match m.purpose with
  | .call =>
    (s.onCarousel k (fun c => { c with
      stops := c.stops.filter (fun x => x.carrier ≠ m.target) })).arrivalAt k m.target
      ((s.carousel k).stops.find? (fun x => x.carrier = m.target))
  | .storeCall => s.arrivalAt k m.target none
  | .sweep => s.sweepCompleted k
  | .jog => s

/-- The carousel stands with no move and its move timer stopped (R65, items 2 and 3). -/
def State.endMove (s : State) (k : Nat) : State :=
  s.onCarousel k (fun c => { c with moveTimer := none, move := none, state := .standing })

/-- The current move completes (R65, R67): its owner is told, then the port takes the report of STANDING. A port
that was CALLING is told of its own arrival alone, and makes no call for the report (R82, R83; log entry 18). -/
def State.completeMove (s : State) (k : Nat) (m : Move) : State :=
  let told := (s.endMove k).tellOwner k m
  if (s.port k).work = .calling then told else told.autoCall k

/-- ARRIVED while MOVING at a carrier below N (R65). -/
def State.arrivedMoving (s : State) (k carrier : Nat) : State :=
  match (s.carousel k).move with
  | none => s.setAtPort k carrier
  | some m =>
    if m.target = carrier then (s.setAtPort k carrier).completeMove k m
    else (s.setAtPort k carrier).enterFault k .positionMismatch

/-- ARRIVED (R65, R62). -/
def State.arrivedReport (s : State) (k carrier : Nat) : State :=
  match (s.carousel k).state with
  | .moving =>
    if carrier < (s.carousel k).carriers then s.arrivedMoving k carrier
    else s.enterFault k .positionMismatch
  | .standing | .interrupted | .curtainWait =>
    if carrier < (s.carousel k).carriers then s.setAtPort k carrier else s.enterFault k .positionMismatch
  | .offline | .fault | .yielded =>
    if carrier < (s.carousel k).carriers then s.setAtPort k carrier else s

/-! ## Timers and the curtain (R64, R66, R67, R74) -/

/-- The move timer expires (R64); a stopped timer does not. -/
def State.moveExpiry (s : State) (k : Nat) : State :=
  match (s.carousel k).moveTimer with
  | none => s
  | some _ => (s.onCarousel k (fun c => { c with moveTimer := none })).faultReaches k .moveTimeout

/-- A change of the curtain (R66). -/
def State.curtainChanged (s : State) (k : Nat) (broken : Bool) : State :=
  let t := s.onCarousel k (fun c => { c with curtainBroken := broken })
  match (s.carousel k).state, broken with
  | .moving, true =>
    (t.queueField (.drive k) .stop).onCarousel k (fun c => { c with
      state := .interrupted, moveTimer := none })
  | .interrupted, true | .curtainWait, true => t.onCarousel k (fun c => { c with dwellTimer := none })
  | .interrupted, false | .curtainWait, false =>
    t.onCarousel k (fun c => { c with dwellTimer := some c.dwell })
  | .moving, false | .standing, _ | .offline, _ | .fault, _ | .yielded, _ => t

/-- CURTAIN (R66). -/
def State.curtainReport (s : State) (k : Nat) (broken : Bool) : State :=
  if (s.carousel k).curtainBroken = broken then s else s.curtainChanged k broken

/-- The distance to a carrier in a given direction. -/
def Carousel.distance (c : Carousel) (d : Direction) (target : Nat) : Nat :=
  match d with
  | .forward => forwardDistance c.carriers c.atPort target
  | .backward => (c.carriers - forwardDistance c.carriers c.atPort target) % c.carriers

/-- The direction of a move. -/
def Move.direction (m : Move) : Direction :=
  match m.leg with
  | some l => l.direction
  | none => .forward

/-- The remaining travel of a move at the dwell's expiry (R67). -/
def Carousel.remaining (c : Carousel) (m : Move) : Leg :=
  match m.purpose with
  | .call | .storeCall => c.travel m.target
  | .sweep =>
    let df := forwardDistance c.carriers c.atPort m.target
    ⟨.forward, if df = 0 then c.carriers else df⟩
  | .jog => ⟨m.direction, c.distance m.direction m.target⟩

/-- The move resumes, or completes when no step remains (R67). -/
def State.resumeMove (s : State) (k : Nat) (m : Move) : State :=
  if ((s.carousel k).remaining m).steps = 0 then s.completeMove k m
  else s.startLeg k m.purpose m.target ((s.carousel k).remaining m)

/-- The resume dwell expires (R67); a stopped timer does not. -/
def State.dwellExpiry (s : State) (k : Nat) : State :=
  match (s.carousel k).dwellTimer with
  | none => s
  | some _ =>
    let t := s.onCarousel k (fun c => { c with dwellTimer := none })
    match (s.carousel k).state, (s.carousel k).move with
    | .interrupted, some m | .curtainWait, some m => t.resumeMove k m
    | _, _ => t

/-- The idle-sweep timer expires (R74); a stopped timer does not. -/
def State.sweepExpiry (s : State) (k : Nat) : State :=
  match (s.carousel k).sweepTimer with
  | none => s
  | some _ =>
    (s.onCarousel k (fun c => { c with sweepTimer := none })).moveRequest k .sweep (s.carousel k).atPort
      ((s.carousel k).freshLeg .sweep (s.carousel k).atPort)

/-! ## The drive (R69, R70, R72) -/

/-- The node is another than the part (R69, R73). -/
def State.foreignNode (s : State) : Option Nat → Option Nat
  | some n => if n = s.address then none else some n
  | none => none

/-- DRIVE-STATUS (R69). -/
def State.driveReport (s : State) (k : Nat) (commander fault : Option Nat) : State :=
  let t := s.onCarousel k (fun c => { c with
    lastCommander := commander, lastFault := fault, statusSinceFault := true })
  match s.foreignNode commander, fault with
  | some n, _ => t.yieldTo k n
  | none, some _ => t.faultReaches k .driveFault
  | none, none => t

/-! ## Configuration and service (R52 to R55) -/

/-- The nodes a CONFIGURE-CAROUSEL names are allowed (R52, check 1). -/
def State.nodesAllowed (s : State) (k drive port gate : Nat) : Bool :=
  [drive, port, gate].all (fun n =>
      s.nodeAllowed n && s.lanes.conveyor ≠ some n
        && carouselNumbers.all (fun j => j = k || !(s.carousel j).usesNode n))
    && drive ≠ port && drive ≠ gate && port ≠ gate

/-- Every slot of carousel `k` mapped under the old figures and not under the new is EMPTY (R1). -/
def State.unmapsEmpty (s : State) (k n p : Nat) : Bool :=
  s.stock.slots.all (fun e =>
    slotCarousel e.1 ≠ k || !s.mapped e.1 || e.2.content = .empty
      || (slotCarrier e.1 < n && slotPosition e.1 < p))

/-- A carousel record newly configured (R52). -/
def Carousel.configured (c : Carousel) (n p : Nat) (bidirectional : Bool) (drive port gate : Nat) : Carousel :=
  { c with
    carriers := n, positions := p, bidirectional := bidirectional,
    drive := some drive, port := some port, gate := some gate,
    zones := if n = c.carriers then c.zones else [],
    atPort := if c.atPort < n then c.atPort else 0,
    estimate := 1500,
    lastCommander := if c.drive = some drive then c.lastCommander else none,
    lastFault := if c.drive = some drive then c.lastFault else none }

/-- CONFIGURE-CAROUSEL (R52). -/
def configureAnswer (k n p : Nat) (bidirectional : Bool) (drive port gate : Nat) (s : State) : Answer :=
  if 7 < k ∨ n < 16 ∨ 96 < n ∨ p < 1 ∨ 8 < p ∨ s.nodesAllowed k drive port gate = false then
    s.refuse .badArgument
  else if (s.carousel k).state ≠ .offline then s.refuse .refusedState
  else if !s.unmapsEmpty k n p then s.refuse .refusedState
  else
    let t := s.onCarousel k (fun c => c.configured n p bidirectional drive port gate)
    ⟨if n = (s.carousel k).carriers then t else t.carriersChanged k, .done, []⟩

/-- Zones written from carrier `f` on. -/
def writeZones (f : Nat) : List Nat → Sparse Nat → Sparse Nat
  | [], m => m
  | z :: rest, m => writeZones (f + 1) rest (sparseSet 0 f z m)

/-- SET-ZONE-MAP (R53). -/
def zoneMapAnswer (k f : Nat) (zones : List Nat) (s : State) : Answer :=
  if 7 < k ∨ zones.length = 0 ∨ 48 < zones.length ∨ (s.carousel k).carriers < f + zones.length
      ∨ zones.any (fun z => 15 < z) = true then
    s.refuse .badArgument
  else
    ⟨(s.onCarousel k (fun c => { c with zones := writeZones f zones c.zones })).zonesChanged k, .done, []⟩

/-- SET-TIMING (R54). The running idle-sweep timer stops; the test at the end of the event starts it with
the new delay when R74's conditions hold. -/
def timingAnswer (k : Nat) (override : Bool) (value dwell delay bypass : Nat) (s : State) : Answer :=
  if 7 < k then s.refuse .badArgument
  else
    ⟨s.onCarousel k (fun c => { c with
        overrideOn := override, overrideValue := clamp 50 10000 value, dwell := clamp 0 10000 dwell,
        sweepDelay := clamp 0 3600 delay, bypassLimit := clamp 0 15 bypass, sweepTimer := none }),
      if clamp 50 10000 value = value ∧ clamp 0 10000 dwell = dwell ∧ clamp 0 3600 delay = delay
          ∧ clamp 0 15 bypass = bypass then .done else .clamped, []⟩

/-- All three nodes of a carousel are configured. -/
def Carousel.complete (c : Carousel) : Bool := c.drive.isSome && c.port.isSome && c.gate.isSome

/-- CAROUSEL-ONLINE (R55). -/
def onlineAnswer (k : Nat) (s : State) : Answer :=
  if 7 < k then s.refuse .badArgument
  else if (s.carousel k).state ≠ .offline ∨ (s.carousel k).complete = false then s.refuse .refusedState
  else ⟨s.enterStanding k, .done, []⟩

/-- A carousel state in which no move is under way and that is not OFFLINE. -/
def CarouselState.settled : CarouselState → Bool
  | .standing | .fault | .yielded => true
  | .offline | .moving | .interrupted | .curtainWait => false

/-- CAROUSEL-OFFLINE (R55). -/
def offlineAnswer (k : Nat) (s : State) : Answer :=
  if 7 < k then s.refuse .badArgument
  else if (s.carousel k).state.settled = false ∨ (s.carousel k).stops ≠ [] ∨ (s.port k).work ≠ .idle then
    s.refuse .refusedState
  else
    ⟨s.onCarousel k (fun c => { c.timersStopped with
      state := .offline, cause := none, statusSinceFault := false }), .done, []⟩

/-! ## Clearing, reclaiming, jogging, replanning (R71, R73, R75, R76) -/

/-- CLEAR-FAULT (R71). -/
def clearFaultAnswer (k : Nat) (s : State) : Answer :=
  let c := s.carousel k
  if 7 < k then s.refuse .badArgument
  else if c.state ≠ .fault ∨ (c.cause = some .driveAbsent ∧ c.statusSinceFault = false)
      ∨ c.lastFault.isSome = true then
    s.refuse .refusedState
  else ⟨(s.onCarousel k (fun c => { c with cause := none })).enterStanding k, .done, []⟩

/-- RECLAIM (R73). With a fault code the carousel is STANDING only for the cause to reach it, and its port
is not told (log entry 18). -/
def reclaimAnswer (k : Nat) (s : State) : Answer :=
  if 7 < k then s.refuse .badArgument
  else if (s.carousel k).state ≠ .yielded then s.refuse .refusedState
  else if (s.foreignNode (s.carousel k).lastCommander).isSome then s.refuse .foreignMaster
  else
    match (s.carousel k).lastFault with
    | none => ⟨s.enterStanding k, .done, []⟩
    | some _ =>
      ⟨(s.onCarousel k (fun c => { c with state := .standing })).enterFault k .driveFault, .done, []⟩

/-- The carrier at a distance from the carrier at port (R75). -/
def Carousel.carrierAt (c : Carousel) (d : Direction) (steps : Nat) : Nat :=
  match d with
  | .forward => (c.atPort + steps) % c.carriers
  | .backward => (c.atPort + (c.carriers - steps)) % c.carriers

/-- JOG-REQUEST (R75). -/
def jogAnswer (k steps direction : Nat) (s : State) : Answer :=
  let c := s.carousel k
  match directionOf? direction with
  | none => s.refuse .badArgument
  | some d =>
    if 7 < k ∨ steps = 0 ∨ c.carriers ≤ steps ∨ (d = .backward ∧ c.bidirectional = false) then
      s.refuse .badArgument
    else if s.serviceHigh = false then s.refuse .notPermitted
    else if c.state ≠ .standing ∨ c.curtainBroken = true ∨ (s.port k).isPresenting = true
        ∨ (s.port k).isPlacing = true then
      s.refuse .refusedState
    else ⟨s.moveRequest k .jog (c.carrierAt d steps) ⟨d, steps⟩, .done, []⟩

/-- Every task of a stop list, as slot, order and line, in list and position order (R76). -/
def stopTasks (k : Nat) (stops : List Stop) : List (Nat × Nat × Nat) :=
  stops.flatMap (fun x => x.tasks.map (fun t => (slotIndex k x.carrier t.position, t.order, t.line)))

/-- Pairs once each, in the order of their first occurrence. -/
def oncePairs (xs : List (Nat × Nat)) : List (Nat × Nat) :=
  xs.foldl (fun acc x => if acc.contains x then acc else acc ++ [x]) []

/-- The carousel a REPLAN-CAROUSEL excludes (R43, R76). -/
def excludedCarousel (k : Nat) : CarouselState → Option Nat
  | .fault | .yielded => some k
  | .offline | .standing | .moving | .interrupted | .curtainWait => none

/-- The releases and the marks of REPLAN-CAROUSEL (R76). -/
def State.releaseStops (s : State) (k : Nat) : State :=
  let tasks := stopTasks k (s.carousel k).stops
  (oncePairs (tasks.map (fun t => t.2))).foldl
    (fun t x => t.markLine x.1 x.2 (excludedCarousel k (s.carousel k).state))
    (tasks.foldl (fun t x => t.tryRelease x.1 x.2.1 x.2.2) s)

/-- REPLAN-CAROUSEL (R76). -/
def replanCarouselAnswer (k : Nat) (s : State) : Answer :=
  if 7 < k then s.refuse .badArgument
  else if (s.carousel k).state.settled = false
      ∨ ((s.port k).isPresenting = true ∧ (s.port k).mode = .pick) then
    s.refuse .refusedState
  else ⟨s.releaseStops k, .done, be2 (stopTasks k (s.carousel k).stops).length⟩

end Sys2Proof.Machine
end

