-- ==== Sys2Proof/Machine/Restarts.lean ====
section
/-! DEFINITION. The three resets (R173 to R175, R26, R50, R77, R100, R116, R134, R146). -/

namespace Sys2Proof.Machine

/-! ## RESET and power-on (R173) -/

/-- The RESET input is applied: the transmission is abandoned and the receiver waits, between symbols (R173, R146, R135). -/
def State.heldInReset (s : State) : State :=
  { s with resetHeld := true,
           ring := { s.ring with transmitter := none, receiver := .waiting, lineBits := [] } }

/-- Every block at its power-on values, with the straps sampled; the model's queue is kept (log entry 45). -/
def State.fresh (s : State) (address : Nat) (high : Bool) : State :=
  { pending := s.pending, address := address, serviceHigh := high }

/-- RESET is released (R173): unaddressed mode, or power-on with its STARTED notice. -/
def State.poweredOn (s : State) (adr : Nat) (high : Bool) : State :=
  let t := s.fresh (adr % 64) high
  if t.serving then (t.notify (.started (adr % 64) high false)).arbitrate else t

/-! ## RESTART-ALL (R174) -/

/-- The part as RESTART-ALL leaves it, before its reply is placed (R174; log entry 24). -/
def State.restartedAll (s : State) : State :=
  let t := s.fresh s.address s.serviceHigh
  ({ t with ring := { t.ring with transmitter := s.ring.transmitter } }).notify
    (.started s.address s.serviceHigh true)

/-- RESTART-ALL (R174). -/
def restartAllAnswer (s : State) : Answer := ⟨s.restartedAll, .done, []⟩

/-! ## RESTART-OPS, block by block (R175) -/

/-- A slot after RESTART-OPS (R26). -/
def Slot.restarted (x : Slot) : Slot :=
  match x.content with
  | .reserved t _ _ => { x with content := .stored t }
  | .inbound _ => { content := .empty, fresh := true }
  | .empty | .stored _ | .held _ | .blocked => x

/-- An event of the Planner's own, discarded by RESTART-OPS (R50). -/
def plannerEvent : Instr → Bool
  | .planningStep _ _ | .replan _ _ _ | .release _ _ _ | .wakeUp _ => true
  | _ => false

/-- The states in which RESTART-OPS queues a STOP (R77). -/
def CarouselState.turning : CarouselState → Bool
  | .moving | .interrupted => true
  | .offline | .standing | .curtainWait | .fault | .yielded => false

/-- The state of a carousel after RESTART-OPS (R77). -/
def CarouselState.restarted : CarouselState → CarouselState
  | .moving | .interrupted | .curtainWait | .standing => .standing
  | .offline => .offline
  | .fault => .fault
  | .yielded => .yielded

/-- A carousel record after RESTART-OPS (R77). -/
def Carousel.restarted (c : Carousel) : Carousel :=
  { c.timersStopped with state := c.state.restarted, move := none, stops := [] }

/-- A Motion Unit's part of RESTART-OPS (R77). -/
def State.restartMotion (s : State) (k : Nat) : State :=
  let t := s.onCarousel k Carousel.restarted
  if (s.carousel k).state.turning then t.queueField (.drive k) .stop else t

/-- A port record after RESTART-OPS (R100). -/
def Port.restarted (p : Port) : Port :=
  { p with
    mode := p.pendingMode.getD p.mode, pendingMode := none, work := .idle, putaway := none, timer := none,
    underrunCount := 0, strayCount := 0, wrongTyreCount := 0, workSinceReport := true, display := {} }

/-- The Audit Unit's part for one carousel (R134). -/
def State.restartAudit (s : State) (k : Nat) : State :=
  let t := s.onAudit k (fun a => { a with streaks := [], counts := [], reports := 0 })
  if (t.auditRecord k).mode = .zoneCycle then t.enterLowest k else t

/-- The Stock Unit's and the Planner's parts (R26, R50). What was handed to other blocks stays handed, pick and
substitution requests among it. DESIGN CHOICE (log entry 65). -/
def State.restartStock (s : State) : State :=
  { s with
    stock := { s.stock with slots := sparseMap Slot.restarted s.stock.slots }
    planner := { s.planner with orders := [] }
    handed := s.handed.filter (fun c => !plannerEvent c) }

/-- The Motion Units' part, with the creation count (R77). The STOPs of several carousels are queued by carousel number.
DESIGN CHOICE (log entry 61). -/
def State.restartMotions (s : State) : State :=
  let t := carouselNumbers.foldl State.restartMotion s
  { t with motion := { t.motion with creations := 0 } }

/-- The Lane Unit's, the Ring Interface's and the Command Unit's parts (R116, R147, R169). -/
def State.restartLines (s : State) : State :=
  { s with
    lanes := { s.lanes with lanes := [], waiting := [] }
    ring := { s.ring with counters := {} }
    command := { s.command with intakeOverruns := 0, noticesLost := 0 } }

/-- Every block's part of RESTART-OPS, in one event (R175). -/
def State.restartedOps (s : State) : State :=
  let ports := carouselNumbers.foldl (fun t k => t.onPort k Port.restarted) s.restartStock.restartMotions
  carouselNumbers.foldl State.restartAudit ports.restartLines

/-- The slots in RESERVED, and in INBOUND (R175). -/
def State.reservedSlots (s : State) : Nat :=
  (s.stock.slots.filter (fun e => match e.2.content with
    | .reserved _ _ _ => true
    | _ => false)).length
def State.inboundSlots (s : State) : Nat :=
  (s.stock.slots.filter (fun e => match e.2.content with
    | .inbound _ => true
    | _ => false)).length

/-- RESTART-OPS (R175). The counters become 0 before the RESTARTED notice is produced, so one lost into OVERFLOW leaves
notices-lost at 1. DESIGN CHOICE (log entry 63). -/
def restartOpsAnswer (s : State) : Answer :=
  ⟨s.restartedOps.notify (.restarted s.planner.orders.length s.reservedSlots s.inboundSlots), .done,
    be1 s.planner.orders.length ++ be2 s.reservedSlots ++ be1 s.inboundSlots⟩

/-- The source check of R164: a restart from a node other than 0 is not permitted. -/
def fromNodeZero (src : Nat) (answer : State → Answer) (s : State) : Answer :=
  if src = 0 then answer s else s.refuse .notPermitted

end Sys2Proof.Machine
end

