-- ==== Sys2Proof/Machine/Intake.lean ====
section
/-! DEFINITION. The Command Unit's intake (09): what each command answers, the intake FIFO, and a command
as it arrives (R162 to R165, R170). -/

namespace Sys2Proof.Machine

/-! ## What each command answers (R164) -/

/-- SET-NOTICES (R170). -/
def setNoticesAnswer (o l p m a st : Bool) (s : State) : Answer :=
  ⟨{ s with command := { s.command with enables := ⟨o, l, p, m, a, st⟩ } }, .done, []⟩

/-- What a command of the table answers. A row that is no command answers as a number that names none. -/
def answerTo : Instr → State → Answer
  | .identify _, s => identifyAnswer s
  | .query _ kind a b, s => queryAnswer kind a b s
  | .readAuditLog _, s => readLogAnswer s
  | .setCalendar _ w y, s => setCalendarAnswer w y s
  | .setNotices _ o l p m a st, s => setNoticesAnswer o l p m a st s
  | .configureCarousel _ k n p bi d po g, s => configureAnswer k n p bi d po g s
  | .setZoneMap _ k f zones, s => zoneMapAnswer k f zones s
  | .setTiming _ k oe v d i b, s => timingAnswer k oe v d i b s
  | .carouselOnline _ k, s => onlineAnswer k s
  | .carouselOffline _ k, s => offlineAnswer k s
  | .clearFault _ k, s => clearFaultAnswer k s
  | .reclaim _ k, s => reclaimAnswer k s
  | .replanCarousel _ k, s => replanCarouselAnswer k s
  | .jogRequest _ k steps d, s => jogAnswer k steps d s
  | .setPort _ k a h u r t, s => setPortAnswer k a h u r t s
  | .portMode _ k m, s => portModeAnswer k m s
  | .loadSlots _ records, s => loadSlotsAnswer records s
  | .holdReleaseAccept _ i, s => holdAcceptAnswer i s
  | .holdReleaseClear _ i, s => holdClearAnswer i s
  | .holdReleaseSet _ i tag a w y, s => holdSetAnswer i tag a w y s
  | .bankCopy _, s => bankCopyAnswer s
  | .loadOpen src t m, s => loadOpenAnswer src t m s
  | .loadRecord src n bytes, s => loadRecordAnswer src n bytes s
  | .loadClose src x, s => loadCloseAnswer src x s
  | .bankSwitch _, s => bankSwitchAnswer s
  | .order src id pr ch co po limit lines, s => orderAnswer src id pr ch co po limit lines s
  | .orderCancel src id, s => cancelAnswer src id s
  | .shortClose src id e, s => shortCloseAnswer src id e s
  | .setLanes _ n t, s => setLanesAnswer n t s
  | .laneRelease _ j f, s => laneReleaseAnswer j f s
  | .laneClearForeign _ j, s => laneClearAnswer j s
  | .auditSet _ k m z q a, s => auditSetAnswer k m z q a s
  | .restartOps src, s => fromNodeZero src restartOpsAnswer s
  | .restartAll src, s => fromNodeZero src restartAllAnswer s
  | .resetAsserted, s | .powerOn .., s | .frameError .., s | .telegramReceived .., s
  | .transmissionComplete, s | .badCommandNumber .., s | .setCalendarBroadcast .., s | .position .., s
  | .arrived .., s | .driveStatus .., s | .foreignMotionTelegram .., s | .returnedMotionTelegram .., s
  | .curtain .., s | .moveTimerExpiry .., s | .resumeDwellExpiry .., s | .idleSweepExpiry .., s
  | .ready .., s | .scan .., s | .placed .., s | .skip .., s | .presentationTimerExpiry .., s
  | .returnedDisplay .., s | .putawayWithdrawn .., s | .putawayFoundElsewhere .., s
  | .planningStep .., s | .replan .., s | .release .., s | .wakeUp .., s | .waitTimerExpiry .., s
  | .arrive .., s | .transitTimerExpiry .., s | .laneEmpty .., s | .returnedLaneOpen .., s
  | .gate .., s | .sessionTimerExpiry, s | .pickRequest .., s | .substitutionRequest .., s =>
    s.refuse .badArgument

/-- The command number of a payload: its first byte, or 0 (R164, R162). -/
def commandNumber : List Byte → Nat
  | [] => 0
  | b :: _ => b.toNat

/-- What a payload from a node answers: checks 1 and 2 of R164, then the command's own. -/
def payloadAnswer (src : Nat) (payload : List Byte) (s : State) : Answer :=
  match parseCommand src payload with
  | .command c => answerTo c s
  | .bad _ => s.refuse .badArgument

/-- The calendar after a broadcast SET-CALENDAR of week and year (R165, R9). -/
def State.broadcastCalendar (s : State) (week year : Nat) : State :=
  if dateValid week year then s.withCalendar week year else s

/-- A payload taken with the broadcast mark (R165): a SET-CALENDAR acts, and anything else is discarded. -/
def State.takeBroadcast (s : State) (src : Nat) (payload : List Byte) : State :=
  match parseCommand src payload with
  | .command (.setCalendar _ week year) => s.broadcastCalendar week year
  | .command _ | .bad _ => s

/-! ## The intake FIFO (R162, R163) -/

/-- A command joins the intake FIFO, or is discarded when 8 stand there (R162). -/
def State.intakeJoin (s : State) (e : IntakeEntry) : State :=
  if 8 ≤ s.command.intake.length then
    ({ s with command := { s.command with
        intakeOverruns := saturate 65535 s.command.intakeOverruns } }).notify
      (.commandOverrun e.source (commandNumber e.payload))
  else { s with command := { s.command with intake := s.command.intake ++ [e] } }

/-- The head of the FIFO may be taken (R163). -/
def State.mayTake (s : State) (broadcast : Bool) : Bool := broadcast || s.ring.replies.length < 4

/-- The taking of a command that has left the FIFO (R163 to R165). -/
def State.takeCommand (s : State) (e : IntakeEntry) : State :=
  if e.broadcast then s.takeBroadcast e.source e.payload
  else (payloadAnswer e.source e.payload s).placed e.source (commandNumber e.payload)

/-- Take commands from the head of the FIFO while they may be taken, at most so many (R163). -/
def State.pump : Nat → State → State
  | 0, s => s
  | n + 1, s =>
    match s.command.intake with
    | [] => s
    | e :: rest =>
      if s.mayTake e.broadcast then
        State.pump n
          (({ s with command := { s.command with intake := rest } } : State).takeCommand e)
      else s

/-- Take every command that may be taken. -/
def State.pumpAll (s : State) : State := s.pump s.command.intake.length

/-! ## A command row (log entry 4) -/

/-- A command arrives at the intake. With the FIFO empty and a free reply entry it is taken at once: its
effect is `answer`, and its reply is placed. Otherwise its payload joins the FIFO. -/
def State.issue (s : State) (src : Nat) (payload : List Byte) (answer : State → Answer) : State :=
  if s.command.intake.isEmpty && s.mayTake false then (answer s).placed src (commandNumber payload)
  else (s.intakeJoin ⟨src, payload, false⟩).pumpAll

/-- A SET-CALENDAR with the broadcast mark arrives at the intake (R165). -/
def State.issueBroadcast (s : State) (src : Nat) (payload : List Byte) (effect : State → State) : State :=
  if s.command.intake.isEmpty then effect s else (s.intakeJoin ⟨src, payload, true⟩).pumpAll

/-- The event of a command row: it arrives, and is taken or waits. -/
def command (c : Instr) (src : Nat) (s : State) : Host.Outcome State Fault Refusal :=
  served (fun t => t.issue src (commandPayload c) (answerTo c)) s

end Sys2Proof.Machine
end

