-- ==== Sys2Proof/Machine/CommandRows.lean ====
section
/-! DEFINITION. The meanings of the command rows: each is its command's arrival at the intake, with what the
command answers (`answerTo`) as its effect (R162 to R165). -/

namespace Sys2Proof.Machine

/-- IDENTIFY (R166). -/
def execIdentify (src : Nat) (s : State) :
    Host.Outcome State Fault Refusal :=
  command (.identify src) src s

/-- QUERY (R167, R168). -/
def execQuery (src kind selA selB : Nat) (s : State) :
    Host.Outcome State Fault Refusal :=
  command (.query src kind selA selB) src s

/-- READ-AUDIT-LOG (R132). -/
def execReadAuditLog (src : Nat) (s : State) :
    Host.Outcome State Fault Refusal :=
  command (.readAuditLog src) src s

/-- SET-CALENDAR (R9). -/
def execSetCalendar (src week year : Nat) (s : State) :
    Host.Outcome State Fault Refusal :=
  command (.setCalendar src week year) src s

/-- SET-NOTICES (R170). -/
def execSetNotices (src : Nat) (order lane port motion audit stock : Bool) (s : State) :
    Host.Outcome State Fault Refusal :=
  command (.setNotices src order lane port motion audit stock) src s

/-- CONFIGURE-CAROUSEL (R52). -/
def execConfigureCarousel (src carousel n p : Nat) (bidirectional : Bool) (drive port gate : Nat) (s : State) :
    Host.Outcome State Fault Refusal :=
  command (.configureCarousel src carousel n p bidirectional drive port gate) src s

/-- SET-ZONE-MAP (R53). -/
def execSetZoneMap (src carousel first : Nat) (zones : List Nat) (s : State) :
    Host.Outcome State Fault Refusal :=
  command (.setZoneMap src carousel first zones) src s

/-- SET-TIMING (R54). -/
def execSetTiming (src carousel : Nat) (override : Bool) (value dwell delay bypass : Nat) (s : State) :
    Host.Outcome State Fault Refusal :=
  command (.setTiming src carousel override value dwell delay bypass) src s

/-- CAROUSEL-ONLINE (R55). -/
def execCarouselOnline (src carousel : Nat) (s : State) :
    Host.Outcome State Fault Refusal :=
  command (.carouselOnline src carousel) src s

/-- CAROUSEL-OFFLINE (R55). -/
def execCarouselOffline (src carousel : Nat) (s : State) :
    Host.Outcome State Fault Refusal :=
  command (.carouselOffline src carousel) src s

/-- CLEAR-FAULT (R71). -/
def execClearFault (src carousel : Nat) (s : State) :
    Host.Outcome State Fault Refusal :=
  command (.clearFault src carousel) src s

/-- RECLAIM (R73). -/
def execReclaim (src carousel : Nat) (s : State) :
    Host.Outcome State Fault Refusal :=
  command (.reclaim src carousel) src s

/-- REPLAN-CAROUSEL (R76). -/
def execReplanCarousel (src carousel : Nat) (s : State) :
    Host.Outcome State Fault Refusal :=
  command (.replanCarousel src carousel) src s

/-- JOG-REQUEST (R75). -/
def execJogRequest (src carousel steps direction : Nat) (s : State) :
    Host.Outcome State Fault Refusal :=
  command (.jogRequest src carousel steps direction) src s

/-- SET-PORT (R79). -/
def execSetPort (src carousel : Nat) (autoCall emptyHints : Bool) (display report timeout : Nat) (s : State) :
    Host.Outcome State Fault Refusal :=
  command (.setPort src carousel autoCall emptyHints display report timeout) src s

/-- PORT-MODE (R80). -/
def execPortMode (src carousel mode : Nat) (s : State) :
    Host.Outcome State Fault Refusal :=
  command (.portMode src carousel mode) src s

/-- LOAD-SLOTS (R24). -/
def execLoadSlots (src : Nat) (records : List SlotArg) (s : State) :
    Host.Outcome State Fault Refusal :=
  command (.loadSlots src records) src s

/-- HOLD-RELEASE, form ACCEPT (R25). -/
def execHoldReleaseAccept (src slot : Nat) (s : State) :
    Host.Outcome State Fault Refusal :=
  command (.holdReleaseAccept src slot) src s

/-- HOLD-RELEASE, form CLEAR (R25). -/
def execHoldReleaseClear (src slot : Nat) (s : State) :
    Host.Outcome State Fault Refusal :=
  command (.holdReleaseClear src slot) src s

/-- HOLD-RELEASE, form SET (R25). -/
def execHoldReleaseSet (src slot tag article week year : Nat) (s : State) :
    Host.Outcome State Fault Refusal :=
  command (.holdReleaseSet src slot tag article week year) src s

/-- BANK-COPY (R152). -/
def execBankCopy (src : Nat) (s : State) :
    Host.Outcome State Fault Refusal :=
  command (.bankCopy src) src s

/-- LOAD-OPEN (R153). -/
def execLoadOpen (src table mode : Nat) (s : State) :
    Host.Outcome State Fault Refusal :=
  command (.loadOpen src table mode) src s

/-- LOAD-RECORD (R155). -/
def execLoadRecord (src count : Nat) (bytes : List Byte) (s : State) :
    Host.Outcome State Fault Refusal :=
  command (.loadRecord src count bytes) src s

/-- LOAD-CLOSE (R157). -/
def execLoadClose (src : Nat) (expected : BitVec 32) (s : State) :
    Host.Outcome State Fault Refusal :=
  command (.loadClose src expected) src s

/-- BANK-SWITCH (R159). -/
def execBankSwitch (src : Nat) (s : State) :
    Host.Outcome State Fault Refusal :=
  command (.bankSwitch src) src s

/-- ORDER (R28). -/
def execOrder (src id priority chain : Nat) (continues : Bool) (policy limit : Nat) (lines : List LineArg) (s : State) :
    Host.Outcome State Fault Refusal :=
  command (.order src id priority chain continues policy limit lines) src s

/-- ORDER-CANCEL (R47). -/
def execOrderCancel (src id : Nat) (s : State) :
    Host.Outcome State Fault Refusal :=
  command (.orderCancel src id) src s

/-- SHORT-CLOSE (R47). -/
def execShortClose (src id : Nat) (endChain : Bool) (s : State) :
    Host.Outcome State Fault Refusal :=
  command (.shortClose src id endChain) src s

/-- SET-LANES (R102). -/
def execSetLanes (src node timeout : Nat) (s : State) :
    Host.Outcome State Fault Refusal :=
  command (.setLanes src node timeout) src s

/-- LANE-RELEASE (R114). -/
def execLaneRelease (src lane : Nat) (force : Bool) (s : State) :
    Host.Outcome State Fault Refusal :=
  command (.laneRelease src lane force) src s

/-- LANE-CLEAR-FOREIGN (R112). -/
def execLaneClearForeign (src lane : Nat) (s : State) :
    Host.Outcome State Fault Refusal :=
  command (.laneClearForeign src lane) src s

/-- AUDIT-SET (R119). -/
def execAuditSet (src carousel mode : Nat) (zones : BitVec 16) (quota : Nat) (autoCorrect : Bool) (s : State) :
    Host.Outcome State Fault Refusal :=
  command (.auditSet src carousel mode zones quota autoCorrect) src s

/-- RESTART-OPS (R175). -/
def execRestartOps (src : Nat) (s : State) :
    Host.Outcome State Fault Refusal :=
  command (.restartOps src) src s

/-- RESTART-ALL (R174). -/
def execRestartAll (src : Nat) (s : State) :
    Host.Outcome State Fault Refusal :=
  command (.restartAll src) src s

/-- A command with an empty payload or a number that names no command (R164). -/
def execBadCommandNumber (src : Nat) (payload : List Byte) (s : State) :
    Host.Outcome State Fault Refusal :=
  served (fun t => t.issue src payload (payloadAnswer src payload)) s

/-- SET-CALENDAR taken with the broadcast mark (R165). -/
def execSetCalendarBroadcast (src week year : Nat) (s : State) :
    Host.Outcome State Fault Refusal :=
  served
    (fun t => t.issueBroadcast src (commandPayload (.setCalendarBroadcast src week year))
      (fun u => u.broadcastCalendar week year)) s

end Sys2Proof.Machine
end

