-- ==== Sys2Proof/Machine/LineEvents.lean ====
section
/-! DEFINITION. The Ring Interface and the Classifier (07): good telegrams, returns, telegrams for the part,
classification, the forward queue, and the end of a transmission (R135 to R145, R148). -/

namespace Sys2Proof.Machine

/-! ## Line counters (R147) -/

def State.count (s : State) (f : Counters → Counters) : State :=
  { s with ring := { s.ring with counters := f s.ring.counters } }

def State.countCheckError (s : State) : State :=
  s.count (fun c => { c with checkErrors := saturate 65535 c.checkErrors })
def State.countFrameError (s : State) : State :=
  s.count (fun c => { c with frameErrors := saturate 65535 c.frameErrors })
def State.countHopExpiry (s : State) : State :=
  s.count (fun c => { c with hopExpiries := saturate 65535 c.hopExpiries })
def State.countOverrun (s : State) : State :=
  s.count (fun c => { c with forwardOverruns := saturate 65535 c.forwardOverruns })
def State.countReturn (s : State) : State := s.count (fun c => { c with returns := saturate 65535 c.returns })
def State.countGuarded (s : State) : State := s.count (fun c => { c with guarded := saturate 65535 c.guarded })
def State.countDiscard (s : State) : State := s.count (fun c => { c with discards := saturate 65535 c.discards })

/-! ## The forward queue (R142) -/

/-- A telegram joins the forward queue, or is lost when 8 stand there. -/
def State.forwardJoin (s : State) (t : Telegram) : State :=
  if 8 ≤ s.ring.forward.length then s.countOverrun
  else { s with ring := { s.ring with forward := s.ring.forward ++ [t] } }

/-! ## Owners of nodes (R137, R140) -/

/-- The eight carousels by number. -/
def eachCarousel : List CarouselNo := [0, 1, 2, 3, 4, 5, 6, 7]

/-- The carousel whose drive, or port, a node is. -/
def State.driveOf (s : State) (node : Nat) : Option CarouselNo :=
  eachCarousel.find? (fun k : CarouselNo => (s.carousel k).drive = some node)
def State.portOf (s : State) (node : Nat) : Option CarouselNo :=
  eachCarousel.find? (fun k : CarouselNo => (s.carousel k).port = some node)

/-- A telegram from a carousel's node as the event at its owner: none without an owner, `some none` when
its payload is too short (R140). -/
def carouselEvent (c : Carousel) (k : CarouselNo) (source kind : Nat) (payload : List Byte) :
    Option (Option Instr) :=
  if c.drive = some source then driveEvent k kind payload
  else if c.port = some source then portEvent k kind payload
  else if c.gate = some source then gateEvent k kind payload
  else none

/-- The event at a telegram's owner (R140). -/
def State.ownerEvent (s : State) (source kind : Nat) (payload : List Byte) : Option (Option Instr) :=
  match eachCarousel.find? (fun k : CarouselNo => (s.carousel k).usesNode source) with
  | some k => carouselEvent (s.carousel k) k source kind payload
  | none => if s.lanes.conveyor = some source then conveyorEvent kind payload else none

/-! ## Returns (R137) -/

/-- What a return is handed on as (log entry 23). -/
def State.returnEvent (s : State) (kind dest : Nat) (payload : List Byte) : Option Instr :=
  if isMotionKind kind then (s.driveOf dest).map .returnedMotionTelegram
  else if kind = kindDisplay then (s.portOf dest).map .returnedDisplay
  else if kind = kindLaneOpen ∧ s.lanes.conveyor = some dest then
    payload.head?.map (fun b => .returnedLaneOpen b.toNat)
  else none

/-- Hand an event, if there is one. -/
def State.handSome (s : State) (o : Option Instr) : State := s.hand o.toList

/-- A return (R137). -/
def State.takeReturn (s : State) (t : Telegram) : State :=
  s.countReturn.handSome (s.returnEvent (lowSix t.kind) (lowSix t.dest) t.payload)

/-! ## Telegrams for the part (R138) -/

/-- A telegram addressed to the part (R138). -/
def State.takeAddressed (s : State) (t : Telegram) : State :=
  if lowSix t.kind = kindCommand then (s.intakeJoin ⟨lowSix t.source, t.payload, false⟩).pumpAll
  else s.countDiscard

/-- A broadcast (R138). -/
def State.takeBroadcastTelegram (s : State) (t : Telegram) : State :=
  if lowSix t.kind = kindCommand ∧ commandNumber t.payload = 4 then
    ((s.forwardJoin t).intakeJoin ⟨lowSix t.source, t.payload, true⟩).pumpAll
  else s.forwardJoin t

/-! ## Classification (R139 to R141) -/

/-- The active traffic table's entry for a kind (R139). -/
def State.disposition (s : State) (kind : Nat) : Disposition := sparseGet .pass kind s.activeBank.traffic

/-- Delivery of a telegram under TAKE or OBSERVE (R140); `noOwner` is what a telegram without an owner
comes to. -/
def State.deliver (s : State) (e : Option (Option Instr)) (noOwner : State → State) : State :=
  match e with
  | some (some c) => s.hand [c]
  | some none => s.countDiscard
  | none => noOwner s

/-- A guarded motion telegram for carousel `k` (R141; log entry 22). -/
def State.guardedTelegram (s : State) (k : CarouselNo) (t : Telegram) : State :=
  match s.disposition (lowSix t.kind) with
  | .pass => s.forwardJoin t
  | .observe => (s.forwardJoin t).hand [.foreignMotionTelegram k (lowSix t.source)]
  | .take | .drop => s.countGuarded

/-- A telegram disposed of by its traffic entry (R139). -/
def State.dispose (s : State) (t : Telegram) : State :=
  let e := s.ownerEvent (lowSix t.source) (lowSix t.kind) t.payload
  match s.disposition (lowSix t.kind) with
  | .pass => s.forwardJoin t
  | .take => s.deliver e State.countDiscard
  | .observe => (s.forwardJoin t).deliver e id
  | .drop => s.countDiscard

/-- The drive a telegram is guarded for: it is a MOVE, STOP or JOG to the drive node of carousel `k`
(R141). -/
def State.guards (s : State) (t : Telegram) : Option CarouselNo :=
  if isMotionKind (lowSix t.kind) then s.driveOf (lowSix t.dest) else none

/-- The Classifier (R139, R141). -/
def State.classify (s : State) (t : Telegram) : State :=
  match s.guards t with
  | some k => s.guardedTelegram k t
  | none => s.dispose t

/-! ## Reception (R135, R136, R148) -/

/-- A good telegram at an addressed part, by the first test of R136 that applies. -/
def State.takeGood (s : State) (t : Telegram) : State :=
  if lowSix t.source = s.address then s.takeReturn t
  else if lowSix t.hop = 0 then s.countHopExpiry
  else if lowSix t.dest = s.address then s.takeAddressed t
  else if lowSix t.dest = 63 then s.takeBroadcastTelegram t
  else s.classify t

/-- A good telegram in unaddressed mode (R148). -/
def State.repeatGood (s : State) (t : Telegram) : State :=
  if lowSix t.hop = 0 then s.countHopExpiry else s.forwardJoin t

/-- A telegram whose reception completes with a check word (R135). One that declares more than 56 payload
bytes cannot complete, and counts as the frame error it is (log entry 17). -/
def State.receive (s : State) (t : Telegram) (check : BitVec 16) : State :=
  if 56 < t.payload.length then s.countFrameError
  else if t.checkWord ≠ check then s.countCheckError
  else if s.serving then s.takeGood t
  else s.repeatGood t

/-- The end of a transmission (R145): the arbiter chooses, and a reply that leaves frees its entry for the
commands that wait (R144, R163). Without a transmission there is nothing to end. -/
def State.endTransmission (s : State) : State :=
  match s.ring.transmitter with
  | none => s
  | some _ => ({ s with ring := { s.ring with transmitter := none } } : State).arbitrate.pumpAll

/-- An event of the line, in addressed and unaddressed mode alike; none is taken while RESET is held
(R173). -/
def lineEvent (effect : State → State) (s : State) : Host.Outcome State Fault Refusal :=
  if s.resetHeld then .next s else .next (State.finish s (effect s))

end Sys2Proof.Machine
end

