-- ==== Sys2Proof/Machine/EventRows.lean ====
section
/-! DEFINITION. The meanings of the rows at the pins, the line, the Motion Units, the Port Sequencers, the
Planner, the Lane Unit, the Audit Unit, the Policy Store and the Stock Unit. -/

namespace Sys2Proof.Machine

/-- RESET is applied (R173). -/
def execResetAsserted (s : State) : Host.Outcome State Fault Refusal := .next s.heldInReset

/-- RESET is released (R173). -/
def execPowerOn (adr : Nat) (svc : Bool) (s : State) : Host.Outcome State Fault Refusal :=
  .next (s.poweredOn adr svc)

/-- A frame error (R135); both causes count alike. -/
def execFrameError (_cause : FrameFault) (s : State) : Host.Outcome State Fault Refusal :=
  lineEvent State.countFrameError s

/-- A telegram completes reception (R135, R136, R148). -/
def execTelegramReceived (telegram : Telegram) (check : BitVec 16) (s : State) :
    Host.Outcome State Fault Refusal :=
  lineEvent (fun t => t.receive telegram check) s

/-- A transmission completes (R145). -/
def execTransmissionComplete (s : State) : Host.Outcome State Fault Refusal :=
  lineEvent State.endTransmission s

/-- POSITION (R62, R63). -/
def execPosition (k : CarouselNo) (carrier : Nat) (s : State) :
    Host.Outcome State Fault Refusal :=
  event (.position k carrier) (fun t => t.positionReport k carrier) s

/-- ARRIVED (R65). -/
def execArrived (k : CarouselNo) (carrier : Nat) (s : State) :
    Host.Outcome State Fault Refusal :=
  event (.arrived k carrier) (fun t => t.arrivedReport k carrier) s

/-- DRIVE-STATUS (R69). -/
def execDriveStatus (k : CarouselNo) (commander fault : Option Nat) (s : State) :
    Host.Outcome State Fault Refusal :=
  event (.driveStatus k commander fault) (fun t => t.driveReport k commander fault) s

/-- An observed foreign MOVE, STOP or JOG (R72). -/
def execForeignMotionTelegram (k : CarouselNo) (source : Nat) (s : State) :
    Host.Outcome State Fault Refusal :=
  event (.foreignMotionTelegram k source) (fun t => t.yieldTo k source) s

/-- A returned MOVE, STOP or JOG (R70). -/
def execReturnedMotionTelegram (k : CarouselNo) (s : State) :
    Host.Outcome State Fault Refusal :=
  event (.returnedMotionTelegram k) (fun t => t.faultReaches k .driveAbsent) s

/-- CURTAIN (R66). -/
def execCurtain (k : CarouselNo) (broken : Bool) (s : State) :
    Host.Outcome State Fault Refusal :=
  event (.curtain k broken) (fun t => t.curtainReport k broken) s

/-- The move timer expires (R64). -/
def execMoveTimerExpiry (k : CarouselNo) (s : State) :
    Host.Outcome State Fault Refusal :=
  event (.moveTimerExpiry k) (fun t => t.moveExpiry k) s

/-- The resume dwell expires (R67). -/
def execResumeDwellExpiry (k : CarouselNo) (s : State) :
    Host.Outcome State Fault Refusal :=
  event (.resumeDwellExpiry k) (fun t => t.dwellExpiry k) s

/-- The idle-sweep timer expires (R74). -/
def execIdleSweepExpiry (k : CarouselNo) (s : State) :
    Host.Outcome State Fault Refusal :=
  event (.idleSweepExpiry k) (fun t => t.sweepExpiry k) s

/-- READY (R82). -/
def execReady (k : CarouselNo) (s : State) :
    Host.Outcome State Fault Refusal :=
  event (.ready k) (fun t => t.makeCall k) s

/-- SCAN (R89, R95, R99). -/
def execScan (k : CarouselNo) (tag article week year : Nat) (s : State) :
    Host.Outcome State Fault Refusal :=
  event (.scan k tag article week year) (fun t => t.scanTag k tag article week year) s

/-- PLACED (R97). -/
def execPlaced (k : CarouselNo) (position : Nat) (s : State) :
    Host.Outcome State Fault Refusal :=
  event (.placed k position) (fun t => t.placedReport k position) s

/-- SKIP (R93). -/
def execSkip (k : CarouselNo) (s : State) :
    Host.Outcome State Fault Refusal :=
  event (.skip k) (fun t => t.skipCarrier k) s

/-- The presentation timer expires (R93, R97). -/
def execPresentationTimerExpiry (k : CarouselNo) (s : State) :
    Host.Outcome State Fault Refusal :=
  event (.presentationTimerExpiry k) (fun t => t.presentationExpiry k) s

/-- A returned DISPLAY (R87). -/
def execReturnedDisplay (k : CarouselNo) (s : State) :
    Host.Outcome State Fault Refusal :=
  event (.returnedDisplay k) (fun t => t.portAbsent k) s

/-- The port's pending slot was withdrawn (R98). -/
def execPutawayWithdrawn (k : CarouselNo) (slot : Nat) (s : State) :
    Host.Outcome State Fault Refusal :=
  event (.putawayWithdrawn k slot) (fun t => t.withdrawnNotice k slot) s

/-- The port's tyre was found elsewhere (R98). -/
def execPutawayFoundElsewhere (k : CarouselNo) (slot found : Nat) (s : State) :
    Host.Outcome State Fault Refusal :=
  event (.putawayFoundElsewhere k slot found) (fun t => t.foundElsewhere k slot found) s

/-- A planning step (R33). -/
def execPlanningStep (order line : Nat) (s : State) :
    Host.Outcome State Fault Refusal :=
  event (.planningStep order line) (fun t => t.planningStep order line) s

/-- A replan (R44). -/
def execReplan (order line : Nat) (cause : ReplanCause) (s : State) :
    Host.Outcome State Fault Refusal :=
  event (.replan order line cause) (fun t => t.replan order line cause) s

/-- A release (R17). -/
def execRelease (slot order line : Nat) (s : State) :
    Host.Outcome State Fault Refusal :=
  event (.release slot order line) (fun t => t.tryRelease slot order line) s

/-- A wake-up (R46). -/
def execWakeUp (article : Nat) (s : State) :
    Host.Outcome State Fault Refusal :=
  event (.wakeUp article) (fun t => t.wakeUp article) s

/-- A wait timer expires (R45). -/
def execWaitTimerExpiry (order line : Nat) (s : State) :
    Host.Outcome State Fault Refusal :=
  event (.waitTimerExpiry order line) (fun t => t.waitExpiry order line) s

/-- ARRIVE (R109, R111). -/
def execArrive (lane tag : Nat) (s : State) :
    Host.Outcome State Fault Refusal :=
  event (.arrive lane tag) (fun t => t.arrival lane tag) s

/-- A transit timer expires (R110). -/
def execTransitTimerExpiry (lane entry : Nat) (s : State) :
    Host.Outcome State Fault Refusal :=
  event (.transitTimerExpiry lane entry) (fun t => t.transitExpiry lane entry) s

/-- LANE-EMPTY (R115). -/
def execLaneEmpty (lane : Nat) (s : State) :
    Host.Outcome State Fault Refusal :=
  event (.laneEmpty lane) (fun t => t.emptyLane lane) s

/-- A returned LANE-OPEN (R115). -/
def execReturnedLaneOpen (lane : Nat) (s : State) :
    Host.Outcome State Fault Refusal :=
  event (.returnedLaneOpen lane) (fun t => t.openFailed lane) s

/-- GATE (R120). -/
def execGate (k : CarouselNo) (carrier : Nat) (tags : List Nat) (s : State) :
    Host.Outcome State Fault Refusal :=
  event (.gate k carrier tags) (fun t => t.gateReport k carrier tags) s

/-- The session timer expires (R158). -/
def execSessionTimerExpiry (s : State) :
    Host.Outcome State Fault Refusal :=
  event .sessionTimerExpiry (fun t => t.sessionExpiry) s

/-- A pick request taken at the Stock Unit (R19, R90). -/
def execPickRequest (k : CarouselNo) (tag order line : Nat) (s : State) :
    Host.Outcome State Fault Refusal :=
  event (.pickRequest k tag order line) (fun t => t.takePick k tag order line) s

/-- A substitution request taken at the Stock Unit (R20, R91). -/
def execSubstitutionRequest (k : CarouselNo) (taken given : Nat) (s : State) :
    Host.Outcome State Fault Refusal :=
  event (.substitutionRequest k taken given) (fun t => t.takeSubstitution k taken given) s

end Sys2Proof.Machine
end

