-- ==== Sys2Proof/Machine/Dispatch.lean ====
section
/-! DEFINITION. The meaning of each row: one arm per constructor of `Instr`. -/

namespace Sys2Proof.Machine

def exec (i : Instr) (s : State) : Host.Outcome State Fault Refusal :=
  match i with
  | .resetAsserted => Sys2Proof.Machine.execResetAsserted s
  | .powerOn adr svc => Sys2Proof.Machine.execPowerOn adr svc s
  | .frameError cause => Sys2Proof.Machine.execFrameError cause s
  | .telegramReceived telegram check => Sys2Proof.Machine.execTelegramReceived telegram check s
  | .transmissionComplete => Sys2Proof.Machine.execTransmissionComplete s
  | .badCommandNumber src payload => Sys2Proof.Machine.execBadCommandNumber src payload s
  | .identify src => Sys2Proof.Machine.execIdentify src s
  | .query src kind selA selB => Sys2Proof.Machine.execQuery src kind selA selB s
  | .readAuditLog src => Sys2Proof.Machine.execReadAuditLog src s
  | .setCalendar src week year => Sys2Proof.Machine.execSetCalendar src week year s
  | .setCalendarBroadcast src week year => Sys2Proof.Machine.execSetCalendarBroadcast src week year s
  | .setNotices src order lane port motion audit stock => Sys2Proof.Machine.execSetNotices src order lane port motion audit stock s
  | .configureCarousel src carousel n p bidirectional drive port gate => Sys2Proof.Machine.execConfigureCarousel src carousel n p bidirectional drive port gate s
  | .setZoneMap src carousel first zones => Sys2Proof.Machine.execSetZoneMap src carousel first zones s
  | .setTiming src carousel override value dwell delay bypass => Sys2Proof.Machine.execSetTiming src carousel override value dwell delay bypass s
  | .carouselOnline src carousel => Sys2Proof.Machine.execCarouselOnline src carousel s
  | .carouselOffline src carousel => Sys2Proof.Machine.execCarouselOffline src carousel s
  | .clearFault src carousel => Sys2Proof.Machine.execClearFault src carousel s
  | .reclaim src carousel => Sys2Proof.Machine.execReclaim src carousel s
  | .replanCarousel src carousel => Sys2Proof.Machine.execReplanCarousel src carousel s
  | .jogRequest src carousel steps direction => Sys2Proof.Machine.execJogRequest src carousel steps direction s
  | .setPort src carousel autoCall emptyHints display report timeout => Sys2Proof.Machine.execSetPort src carousel autoCall emptyHints display report timeout s
  | .portMode src carousel mode => Sys2Proof.Machine.execPortMode src carousel mode s
  | .loadSlots src records => Sys2Proof.Machine.execLoadSlots src records s
  | .holdReleaseAccept src slot => Sys2Proof.Machine.execHoldReleaseAccept src slot s
  | .holdReleaseClear src slot => Sys2Proof.Machine.execHoldReleaseClear src slot s
  | .holdReleaseSet src slot tag article week year => Sys2Proof.Machine.execHoldReleaseSet src slot tag article week year s
  | .bankCopy src => Sys2Proof.Machine.execBankCopy src s
  | .loadOpen src table mode => Sys2Proof.Machine.execLoadOpen src table mode s
  | .loadRecord src count bytes => Sys2Proof.Machine.execLoadRecord src count bytes s
  | .loadClose src expected => Sys2Proof.Machine.execLoadClose src expected s
  | .bankSwitch src => Sys2Proof.Machine.execBankSwitch src s
  | .order src id priority chain continues policy limit lines => Sys2Proof.Machine.execOrder src id priority chain continues policy limit lines s
  | .orderCancel src id => Sys2Proof.Machine.execOrderCancel src id s
  | .shortClose src id endChain => Sys2Proof.Machine.execShortClose src id endChain s
  | .setLanes src node timeout => Sys2Proof.Machine.execSetLanes src node timeout s
  | .laneRelease src lane force => Sys2Proof.Machine.execLaneRelease src lane force s
  | .laneClearForeign src lane => Sys2Proof.Machine.execLaneClearForeign src lane s
  | .auditSet src carousel mode zones quota autoCorrect => Sys2Proof.Machine.execAuditSet src carousel mode zones quota autoCorrect s
  | .restartOps src => Sys2Proof.Machine.execRestartOps src s
  | .restartAll src => Sys2Proof.Machine.execRestartAll src s
  | .position k carrier => Sys2Proof.Machine.execPosition k carrier s
  | .arrived k carrier => Sys2Proof.Machine.execArrived k carrier s
  | .driveStatus k commander fault => Sys2Proof.Machine.execDriveStatus k commander fault s
  | .foreignMotionTelegram k source => Sys2Proof.Machine.execForeignMotionTelegram k source s
  | .returnedMotionTelegram k => Sys2Proof.Machine.execReturnedMotionTelegram k s
  | .curtain k broken => Sys2Proof.Machine.execCurtain k broken s
  | .moveTimerExpiry k => Sys2Proof.Machine.execMoveTimerExpiry k s
  | .resumeDwellExpiry k => Sys2Proof.Machine.execResumeDwellExpiry k s
  | .idleSweepExpiry k => Sys2Proof.Machine.execIdleSweepExpiry k s
  | .ready k => Sys2Proof.Machine.execReady k s
  | .scan k tag article week year => Sys2Proof.Machine.execScan k tag article week year s
  | .placed k position => Sys2Proof.Machine.execPlaced k position s
  | .skip k => Sys2Proof.Machine.execSkip k s
  | .presentationTimerExpiry k => Sys2Proof.Machine.execPresentationTimerExpiry k s
  | .returnedDisplay k => Sys2Proof.Machine.execReturnedDisplay k s
  | .putawayWithdrawn k slot => Sys2Proof.Machine.execPutawayWithdrawn k slot s
  | .putawayFoundElsewhere k slot found => Sys2Proof.Machine.execPutawayFoundElsewhere k slot found s
  | .planningStep order line => Sys2Proof.Machine.execPlanningStep order line s
  | .replan order line cause => Sys2Proof.Machine.execReplan order line cause s
  | .release slot order line => Sys2Proof.Machine.execRelease slot order line s
  | .wakeUp article => Sys2Proof.Machine.execWakeUp article s
  | .waitTimerExpiry order line => Sys2Proof.Machine.execWaitTimerExpiry order line s
  | .arrive lane tag => Sys2Proof.Machine.execArrive lane tag s
  | .transitTimerExpiry lane entry => Sys2Proof.Machine.execTransitTimerExpiry lane entry s
  | .laneEmpty lane => Sys2Proof.Machine.execLaneEmpty lane s
  | .returnedLaneOpen lane => Sys2Proof.Machine.execReturnedLaneOpen lane s
  | .gate k carrier tags => Sys2Proof.Machine.execGate k carrier tags s
  | .sessionTimerExpiry => Sys2Proof.Machine.execSessionTimerExpiry s
  | .pickRequest k tag order line => Sys2Proof.Machine.execPickRequest k tag order line s
  | .substitutionRequest k taken given => Sys2Proof.Machine.execSubstitutionRequest k taken given s

end Sys2Proof.Machine
end

