-- ==== Sys2Proof/Machine/Idle.lean ====
section
/-! DEFINITION. What the part does by itself when no command waits: it takes a handed event, else a timer
that has run out, else the end of the transmission, else a millisecond passes (log entries 1 and 29). -/

namespace Sys2Proof.Machine

/-! ## A millisecond (00, Time) -/

/-- A timer one millisecond later. -/
def tickTimer (t : Option Nat) : Option Nat := t.map (fun n => n - 1)

def Carousel.tick (c : Carousel) : Carousel :=
  { c with moveTimer := tickTimer c.moveTimer, dwellTimer := tickTimer c.dwellTimer,
           sweepTimer := tickTimer c.sweepTimer }

def Port.tick (p : Port) : Port := { p with timer := tickTimer p.timer }

def Line.tick (l : Line) : Line := { l with wait := tickTimer l.wait }

def Order.tick (o : Order) : Order := { o with lines := o.lines.map Line.tick }

def Entry.tick (e : Entry) : Entry := { e with timer := tickTimer e.timer }

def Lane.tick (l : Lane) : Lane := { l with expected := l.expected.map Entry.tick }

def Session.tick (x : Session) : Session := { x with timer := x.timer - 1 }

/-- A millisecond passes: the time base advances, and every running timer with it. -/
def State.tick (s : State) : State :=
  { s with
    now := s.now + 1
    motion := { s.motion with carousels := sparseMap Carousel.tick s.motion.carousels }
    ports := sparseMap Port.tick s.ports
    planner := { s.planner with orders := s.planner.orders.map Order.tick }
    lanes := { s.lanes with lanes := sparseMap Lane.tick s.lanes.lanes }
    policy := { s.policy with session := s.policy.session.map Session.tick } }

/-! ## Timers that have run out -/

/-- A carousel's timer that has run out. -/
def State.dueMotion (s : State) (k : CarouselNo) : Option Instr :=
  let c := s.carousel k
  if c.moveTimer = some 0 then some (.moveTimerExpiry k)
  else if c.dwellTimer = some 0 then some (.resumeDwellExpiry k)
  else if c.sweepTimer = some 0 then some (.idleSweepExpiry k)
  else none

/-- A port's timer that has run out. -/
def State.duePort (s : State) (k : CarouselNo) : Option Instr :=
  if (s.port k).timer = some 0 then some (.presentationTimerExpiry k) else none

/-- A wait timer of an order that has run out. -/
def Order.dueLine (o : Order) : Option Instr :=
  (o.lines.find? (fun l => l.wait = some 0)).map (fun l => .waitTimerExpiry o.id l.number)

/-- The place of the first entry that satisfies `p`, counting from `n`. -/
def placeFrom {α : Type} (p : α → Bool) (n : Nat) : List α → Option Nat
  | [] => none
  | x :: rest => if p x then some n else placeFrom p (n + 1) rest

/-- A transit timer of a lane that has run out. -/
def State.dueTransit (s : State) (j : Nat) : Option Instr :=
  (placeFrom (fun e => e.timer = some 0) 0 (s.lane j).expected).map (fun i => .transitTimerExpiry j i)

/-- The session timer that has run out. -/
def State.dueSession (s : State) : Option Instr :=
  match s.policy.session with
  | some x => if x.timer = 0 then some .sessionTimerExpiry else none
  | none => none

/-- The first some of a list of options. -/
def firstSome {α β : Type} (f : α → Option β) : List α → Option β
  | [] => none
  | x :: rest =>
    match f x with
    | some y => some y
    | none => firstSome f rest

/-- The timer expiry that is due, in the order of log entry 29. -/
def State.dueTimer (s : State) : Option Instr :=
  firstSome id [firstSome s.dueMotion eachCarousel, firstSome s.duePort eachCarousel,
    firstSome Order.dueLine s.planner.orders, firstSome s.dueTransit laneNumbers, s.dueSession]

/-! ## The part by itself -/

/-- The event the part takes by itself: a handed one, else an expiry, else the end of the transmission. -/
def State.ownEvent (s : State) : Option Instr :=
  match s.handed with
  | c :: _ => some c
  | [] =>
    match s.dueTimer with
    | some c => some c
    | none => s.ring.transmitter.map (fun _ => .transmissionComplete)

/-- The part with no command waiting. While RESET is held nothing happens (R173). In unaddressed mode only
transmissions end (R148). -/
def idleStep (s : State) : Host.Outcome State Fault Refusal :=
  if s.resetHeld then .next s
  else if s.serving then
    match s.ownEvent with
    | some c => exec c s
    | none => .next s.tick
  else
    match s.ring.transmitter with
    | some _ => exec .transmissionComplete s
    | none => .next s.tick

end Sys2Proof.Machine
end

