-- ==== Sys2Proof/Machine/Receiver.lean ====
section
/-! DEFINITION. The line (R135, R176, R177): the code of a symbol as levels, the levels RING-OUT carries, and the
receiver on RING-IN, level by level and symbol by symbol: how they become the rows FRAME_ERROR and
TELEGRAM_RECEIVED. No row stands for one symbol or one level (log entry 30). A level is high as true. -/

namespace Sys2Proof.Machine

/-! ## Symbols (R176) -/

/-- A symbol of the line: the start marker, or a data byte (R176). -/
inductive Symbol where
  | marker
  | data (b : Byte)
  deriving DecidableEq, Repr

/-- The ten levels of a symbol, in the order sent: a data byte has a low start bit, its bits from the least
significant on, and a high stop bit; the marker is low throughout (R176). -/
def Symbol.levels : Symbol → List Bool
  | .marker => List.replicate 10 false
  | .data b => false :: ((List.range 8).map b.getLsbD ++ [true])

/-- The number whose bits some levels are, the first the least significant. -/
def levelsValue : List Bool → Nat
  | [] => 0
  | b :: rest => b.toNat + 2 * levelsValue rest

/-- What ten levels that begin low are received as (R176): the marker, all of them low; a data byte, the last of
them high; else no symbol of the line, received as what is free (log entry 53). -/
def readSymbol (bits : List Bool) : Option Symbol :=
  if bits.all (fun b => !b) then some .marker
  else if bits.getD 9 false then some (.data (BitVec.ofNat 8 (levelsValue bits / 2)))
  else (Config.spoiledSymbol (BitVec.ofNat 10 (levelsValue bits))).map .data

end Sys2Proof.Machine

namespace Sys2Proof

/-- The symbols of a telegram: the marker, the header, the payload and the check word (R176, R177). -/
def Telegram.symbols (t : Telegram) : List Machine.Symbol := .marker :: t.wire.map Machine.Symbol.data

/-- The levels of a telegram, its symbols back to back (R176). -/
def Telegram.levels (t : Telegram) : List Bool := t.symbols.flatMap Machine.Symbol.levels

/-- A telegram's duration on the line in microseconds, one for each level (R176). -/
def Telegram.duration (t : Telegram) : Nat := (t.payload.length + 8) * 10

end Sys2Proof

namespace Sys2Proof.Machine

/-! ## RING-OUT (R176; 10, Pins) -/

/-- The level of RING-OUT `n` bit times into the transmission under way: idle while RESET is held, with no
transmission, and after its last symbol. -/
def State.ringOut (s : State) (n : Nat) : Bool :=
  match s.resetHeld, s.ring.transmitter with
  | false, some t => t.levels.getD n true
  | false, none | true, _ => true

/-! ## RING-IN (R135) -/

/-- The telegram and check word of the bytes between a marker and the end of a check word (R177). -/
def readTelegram : List Byte → Option (Telegram × BitVec 16)
  | d :: s :: k :: h :: l :: rest =>
    match rest.drop l.toNat with
    | [hi, lo] => some (⟨d, s, k, h, rest.take l.toNat⟩, BitVec.ofNat 16 (num2 hi lo))
    | _ => none
  | _ => none

/-- The payload length declared is above 56, seen as the fifth byte comes in (R135). -/
def declaresTooMuch (bytes : List Byte) : Bool :=
  bytes.length = 5 && (match bytes[4]? with | some l => 56 < l.toNat | none => false)

/-- The receiver set. -/
def State.setReceiver (s : State) (r : Receiver) : State := { s with ring := { s.ring with receiver := r } }

/-- The levels of the symbol under way set. -/
def State.setLineBits (s : State) (bits : List Bool) : State := { s with ring := { s.ring with lineBits := bits } }

/-- The line raises a row: it joins the commands that wait. -/
def State.raise (s : State) (c : Instr) : State := { s with pending := s.pending ++ [c] }

/-- The bytes received since the marker, with one more. -/
def State.assemble (s : State) (bytes : List Byte) : State :=
  if declaresTooMuch bytes then (s.setReceiver .waiting).raise (.frameError .tooLong)
  else
    match readTelegram bytes with
    | some (t, check) => (s.setReceiver .waiting).raise (.telegramReceived t check)
    | none => s.setReceiver (.assembling bytes)

/-- One symbol of RING-IN is received (R135); while RESET is held nothing is. -/
def State.feedSymbol (s : State) (x : Symbol) : State :=
  if s.resetHeld then s
  else
    match s.ring.receiver, x with
    | .waiting, .marker => s.setReceiver (.assembling [])
    | .waiting, .data _ => s
    | .assembling _, .marker => (s.setReceiver (.assembling [])).raise (.frameError .cutShort)
    | .assembling bytes, .data b => s.assemble (bytes ++ [b])

/-- Ten levels of RING-IN are received as a symbol, or as nothing. -/
def State.feedRead (s : State) (bits : List Bool) : State :=
  match readSymbol bits with
  | some x => s.feedSymbol x
  | none => s

/-- One bit time of RING-IN (R176): between symbols a high level is the idle line; a low one starts a symbol, which
its tenth level ends; while RESET is held nothing is received. -/
def State.feedLevel (s : State) (high : Bool) : State :=
  if s.resetHeld then s
  else if s.ring.lineBits.isEmpty && high then s
  else if s.ring.lineBits.length < 9 then s.setLineBits (s.ring.lineBits ++ [high])
  else (s.setLineBits []).feedRead (s.ring.lineBits ++ [high])

/-- Bit times of RING-IN one after another. -/
def State.feedLevels (s : State) (bits : List Bool) : State := bits.foldl State.feedLevel s

end Sys2Proof.Machine
end

