-- ==== Sys2Proof/WellFormed.lean ====
section
/-! DEFINITION. Well-formed commands: each operand within the values its field can carry (R177, R180). The
ranges a command's own rule checks are wider here: a value out of a rule's range but within its bytes is
well formed, and the rule refuses it. -/

namespace Sys2Proof

/-- Values of one to four bytes. -/
def byte1 (n : Nat) : Bool := n < 256
def byte2 (n : Nat) : Bool := n < 65536
def byte3 (n : Nat) : Bool := n < 16777216
def byte4 (n : Nat) : Bool := n < 4294967296

/-- A source node (R177). -/
def nodeField (n : Nat) : Bool := n < 64

/-- A payload a telegram can carry (R177). -/
def payloadFits (payload : List Byte) : Bool := payload.length ≤ 56

/-- A slot index, an order id, a line number, a lane (00, Numbering; R27, R31). -/
def slotField (n : Nat) : Bool := n < 6144
def orderField (n : Nat) : Bool := 1 ≤ n && n < 65536
def lineField (n : Nat) : Bool := 1 ≤ n && n ≤ 8
def laneField (n : Nat) : Bool := n < 24

/-- One record of LOAD-SLOTS within its bytes. -/
def slotArgFits (r : SlotArg) : Bool :=
  byte2 r.slot && byte1 r.target && byte4 r.tag && byte3 r.article && byte1 r.week && byte1 r.year

/-- One line of ORDER within its bytes. -/
def lineArgFits (l : LineArg) : Bool := byte3 l.article && byte1 l.quantity && byte1 l.rule

/-- A field that may be absent, within a range when present. -/
def absentOr (p : Nat → Bool) : Option Nat → Bool
  | none => true
  | some n => p n

/-- A drive's fault code: 1 to 255, or none. -/
def faultField (n : Nat) : Bool := 1 ≤ n && n < 256

/-- The payload spells no command (R164, checks 1 and 2). -/
def spellsNone (src : Nat) (payload : List Byte) : Bool :=
  match Machine.parseCommand src payload with
  | .bad _ => true
  | .command _ => false

/-- A telegram as the receiver can complete it: at most 56 bytes of payload (R177). -/
def Telegram.wellFormed (t : Telegram) : Bool := payloadFits t.payload

/-- The operands are within the values their fields can carry. -/
def Instr.wellFormed : Instr → Bool
  | .resetAsserted | .frameError _ | .transmissionComplete | .sessionTimerExpiry => true
  | .powerOn adr _ => nodeField adr
  | .telegramReceived t _ => t.wellFormed
  | .badCommandNumber src payload => nodeField src && payloadFits payload && spellsNone src payload
  | .identify src | .readAuditLog src | .bankCopy src | .bankSwitch src | .restartOps src
  | .restartAll src => nodeField src
  | .query src kind a b => nodeField src && byte1 kind && byte4 a && byte2 b
  | .setCalendar src w y | .setCalendarBroadcast src w y => nodeField src && byte1 w && byte1 y
  | .setNotices src _ _ _ _ _ _ => nodeField src
  | .configureCarousel src k n p _ d po g =>
    nodeField src && byte1 k && byte1 n && byte1 p && byte1 d && byte1 po && byte1 g
  | .setZoneMap src k f zones =>
    nodeField src && byte1 k && byte1 f && zones.length ≤ 52 && zones.all byte1
  | .setTiming src k _ v d i b => nodeField src && byte1 k && byte2 v && byte2 d && byte2 i && byte1 b
  | .carouselOnline src k | .carouselOffline src k | .clearFault src k | .reclaim src k
  | .replanCarousel src k => nodeField src && byte1 k
  | .jogRequest src k s d => nodeField src && byte1 k && byte1 s && byte1 d
  | .setPort src k _ _ u r t => nodeField src && byte1 k && byte1 u && byte1 r && byte2 t
  | .portMode src k m => nodeField src && byte1 k && byte1 m
  | .loadSlots src records => nodeField src && records.length ≤ 4 && records.all slotArgFits
  | .holdReleaseAccept src i | .holdReleaseClear src i => nodeField src && byte2 i
  | .holdReleaseSet src i tag a w y =>
    nodeField src && byte2 i && byte4 tag && byte3 a && byte1 w && byte1 y
  | .loadOpen src t m => nodeField src && byte1 t && byte1 m
  | .loadRecord src n bytes => nodeField src && byte1 n && bytes.length ≤ 54
  | .loadClose src _ => nodeField src
  | .order src id pr ch _ po limit lines =>
    nodeField src && byte2 id && byte1 pr && byte1 ch && byte1 po && byte2 limit && lines.length ≤ 9
      && lines.all lineArgFits
  | .orderCancel src id | .shortClose src id _ => nodeField src && byte2 id
  | .setLanes src n t => nodeField src && byte1 n && byte2 t
  | .laneRelease src j _ | .laneClearForeign src j => nodeField src && byte1 j
  | .auditSet src k m _ q _ => nodeField src && byte1 k && byte1 m && byte1 q
  | .position _ c | .arrived _ c => byte1 c
  | .driveStatus _ commander fault => absentOr nodeField commander && absentOr faultField fault
  | .foreignMotionTelegram _ source => nodeField source
  | .returnedMotionTelegram _ | .curtain _ _ | .moveTimerExpiry _ | .resumeDwellExpiry _
  | .idleSweepExpiry _ | .ready _ | .skip _ | .presentationTimerExpiry _ | .returnedDisplay _ => true
  | .scan _ tag a w y => byte4 tag && byte3 a && byte1 w && byte1 y
  | .placed _ p => byte1 p
  | .putawayWithdrawn _ i => slotField i
  | .putawayFoundElsewhere _ i j => slotField i && slotField j
  | .planningStep o n | .waitTimerExpiry o n | .replan o n _ => orderField o && lineField n
  | .release i o n => slotField i && orderField o && lineField n
  | .wakeUp a => 1 ≤ a && a ≤ 1048575
  | .arrive j tag => byte1 j && byte4 tag
  | .transitTimerExpiry j i => laneField j && i < 16
  | .laneEmpty j | .returnedLaneOpen j => byte1 j
  | .gate _ c tags => byte1 c && tags.length = 8 && tags.all byte4
  | .pickRequest _ tag o n => byte4 tag && 1 ≤ tag && orderField o && lineField n
  | .substitutionRequest _ u r => slotField u && slotField r

end Sys2Proof
end

