-- ==== Sys2Proof/Safety.lean ====
section
/-! DEFINITION. The terms claims use: when a command is taken as it arrives, and the invariants of the
part's tables, queues, counters and banks. -/

namespace Sys2Proof

/-- The source node of a command row that a COMMAND telegram addressed to the part can stand for; the
other rows have none. -/
def Instr.commandSource : Instr → Option Nat
  | .badCommandNumber src _ | .identify src | .query src _ _ _ | .readAuditLog src | .setCalendar src _ _
  | .setNotices src _ _ _ _ _ _ | .configureCarousel src _ _ _ _ _ _ _ | .setZoneMap src _ _ _
  | .setTiming src _ _ _ _ _ _ | .carouselOnline src _ | .carouselOffline src _ | .clearFault src _
  | .reclaim src _ | .replanCarousel src _ | .jogRequest src _ _ _ | .setPort src _ _ _ _ _ _
  | .portMode src _ _ | .loadSlots src _ | .holdReleaseAccept src _ | .holdReleaseClear src _
  | .holdReleaseSet src _ _ _ _ _ | .bankCopy src | .loadOpen src _ _ | .loadRecord src _ _
  | .loadClose src _ | .bankSwitch src | .order src _ _ _ _ _ _ _ | .orderCancel src _
  | .shortClose src _ _ | .setLanes src _ _ | .laneRelease src _ _ | .laneClearForeign src _
  | .auditSet src _ _ _ _ _ | .restartOps src | .restartAll src => some src
  | .resetAsserted | .powerOn .. | .frameError .. | .telegramReceived .. | .transmissionComplete
  | .setCalendarBroadcast .. | .position .. | .arrived .. | .driveStatus .. | .foreignMotionTelegram ..
  | .returnedMotionTelegram .. | .curtain .. | .moveTimerExpiry .. | .resumeDwellExpiry ..
  | .idleSweepExpiry .. | .ready .. | .scan .. | .placed .. | .skip .. | .presentationTimerExpiry ..
  | .returnedDisplay .. | .putawayWithdrawn .. | .putawayFoundElsewhere .. | .planningStep ..
  | .replan .. | .release .. | .wakeUp .. | .waitTimerExpiry .. | .arrive .. | .transitTimerExpiry ..
  | .laneEmpty .. | .returnedLaneOpen .. | .gate .. | .sessionTimerExpiry | .pickRequest ..
  | .substitutionRequest .. => none

/-- A row taken at a block of its own: no command, and no row of the pins or the line. -/
def Instr.atBlock : Instr → Bool
  | .position .. | .arrived .. | .driveStatus .. | .foreignMotionTelegram .. | .returnedMotionTelegram ..
  | .curtain .. | .moveTimerExpiry .. | .resumeDwellExpiry .. | .idleSweepExpiry .. | .ready .. | .scan ..
  | .placed .. | .skip .. | .presentationTimerExpiry .. | .returnedDisplay .. | .putawayWithdrawn ..
  | .putawayFoundElsewhere .. | .planningStep .. | .replan .. | .release .. | .wakeUp ..
  | .waitTimerExpiry .. | .arrive .. | .transitTimerExpiry .. | .laneEmpty .. | .returnedLaneOpen ..
  | .gate .. | .sessionTimerExpiry | .pickRequest .. | .substitutionRequest .. => true
  | .resetAsserted | .powerOn .. | .frameError .. | .telegramReceived .. | .transmissionComplete
  | .badCommandNumber .. | .identify .. | .query .. | .readAuditLog .. | .setCalendar ..
  | .setCalendarBroadcast .. | .setNotices .. | .configureCarousel .. | .setZoneMap .. | .setTiming ..
  | .carouselOnline .. | .carouselOffline .. | .clearFault .. | .reclaim .. | .replanCarousel ..
  | .jogRequest .. | .setPort .. | .portMode .. | .loadSlots .. | .holdReleaseAccept ..
  | .holdReleaseClear .. | .holdReleaseSet .. | .bankCopy .. | .loadOpen .. | .loadRecord ..
  | .loadClose .. | .bankSwitch .. | .order .. | .orderCancel .. | .shortClose .. | .setLanes ..
  | .laneRelease .. | .laneClearForeign .. | .auditSet .. | .restartOps .. | .restartAll .. => false

namespace Machine

/-- A command that arrives is taken at once: the part serves, the intake FIFO is empty and the reply queue
has a free entry (R163). -/
def State.accepts (s : State) : Prop :=
  s.serving = true ∧ s.command.intake = [] ∧ s.ring.replies.length < 4

/-- A dedicated drive, port or lane has at most one entry in the field command queue (R143). -/
def fieldOk (q : List FieldEntry) : Prop := (q.map FieldEntry.target).Nodup

/-- The notice queue (R171): at most 64 notices, an OVERFLOW only as the newest, and at most 63 without
one. -/
def noticesOk (q : List QueuedNotice) : Prop :=
  q.length ≤ 64 ∧ (∀ x ∈ q.dropLast, x.notice.isOverflow = false)
    ∧ ((∀ x ∈ q, x.notice.isOverflow = false) → q.length ≤ 63)

/-- The four output queues and the intake FIFO are within their capacities (R142 to R144, R162, R171). -/
structure QueuesOk (s : State) : Prop where
  forward : s.ring.forward.length ≤ 8
  field : fieldOk s.ring.field
  replies : s.ring.replies.length ≤ 4
  notices : noticesOk s.ring.notices
  intake : s.command.intake.length ≤ 8

/-- Every line counter is within 0 to 65,535 (R147). -/
structure CountersOk (c : Counters) : Prop where
  checkErrors : c.checkErrors ≤ 65535
  frameErrors : c.frameErrors ≤ 65535
  hopExpiries : c.hopExpiries ≤ 65535
  forwardOverruns : c.forwardOverruns ≤ 65535
  returns : c.returns ≤ 65535
  guarded : c.guarded ≤ 65535
  discards : c.discards ≤ 65535

/-- The model's tables are in canonical form, so that equal tables are equal data. -/
structure TablesOk (s : State) : Prop where
  slots : sparseCanonical {} s.stock.slots = true
  carousels : sparseCanonical {} s.motion.carousels = true
  ports : sparseCanonical {} s.ports = true
  lanes : sparseCanonical {} s.lanes.lanes = true
  records : sparseCanonical {} s.audit.records = true

/-- No tag is recorded in two slots (R7). -/
def TagsDistinct (s : State) : Prop :=
  ∀ i j tag, (s.slot i).content.tag = some tag → (s.slot j).content.tag = some tag → i = j

/-- What CONFIGURE-CAROUSEL, SET-ZONE-MAP and SET-TIMING alone give a carousel record; the other fields at
their power-on values. -/
def Carousel.fixed (c : Carousel) : Carousel where
  carriers := c.carriers
  positions := c.positions
  bidirectional := c.bidirectional
  drive := c.drive
  port := c.port
  gate := c.gate
  overrideOn := c.overrideOn
  overrideValue := c.overrideValue
  dwell := c.dwell
  sweepDelay := c.sweepDelay
  bypassLimit := c.bypassLimit
  zones := c.zones

/-- Each configured node address belongs to one carousel and one role (R140). -/
structure NodesDistinct (s : State) : Prop where
  carousels : ∀ (j k : CarouselNo) n, (s.carousel j).usesNode n = true → (s.carousel k).usesNode n = true → j = k
  driveNotPort : ∀ (k : CarouselNo) n, (s.carousel k).drive = some n → (s.carousel k).port ≠ some n
  driveNotGate : ∀ (k : CarouselNo) n, (s.carousel k).drive = some n → (s.carousel k).gate ≠ some n
  portNotGate : ∀ (k : CarouselNo) n, (s.carousel k).port = some n → (s.carousel k).gate ≠ some n
  conveyor : ∀ (k : CarouselNo) n, s.lanes.conveyor = some n → (s.carousel k).usesNode n = false

/-- A telegram that completes reception good (R135). -/
def goodTelegram (t : Telegram) (check : BitVec 16) : Prop :=
  t.payload.length ≤ 56 ∧ t.checkWord = check

/-- A telegram that passes R136's tests as far as the Classifier. -/
def State.classifies (s : State) (t : Telegram) : Prop :=
  s.serving = true ∧ lowSix t.source ≠ s.address ∧ lowSix t.hop ≠ 0 ∧ lowSix t.dest ≠ s.address
    ∧ lowSix t.dest ≠ 63

/-- The telegram is a MOVE, STOP or JOG to the drive node of carousel `k` (R141). -/
def State.guardedFor (s : State) (t : Telegram) (k : CarouselNo) : Prop :=
  (lowSix t.kind = 20 ∨ lowSix t.kind = 21 ∨ lowSix t.kind = 22) ∧ (s.carousel k).drive = some (lowSix t.dest)

/-- The active traffic table's entry for a telegram's kind (R139). -/
def State.entryFor (s : State) (t : Telegram) : Disposition :=
  sparseGet .pass (lowSix t.kind) s.activeBank.traffic

/-- The forward queue after a telegram is forwarded into it (R142). -/
def State.forwards (s : State) (t : Telegram) : State :=
  if s.ring.forward.length < 8 then { s with ring := { s.ring with forward := s.ring.forward ++ [t] } }
  else s.count (fun c => { c with forwardOverruns := min 65535 (c.forwardOverruns + 1) })

/-- R140's table with the payload layouts of 10: the telegram has an owner, and is taken there as row `c`. -/
inductive OwnerTakes (s : State) (t : Telegram) : Instr → Prop
  | position (k : CarouselNo) (c : Byte) (rest : List Byte)
      (node : (s.carousel k).drive = some (lowSix t.source)) (kind : lowSix t.kind = 16)
      (payload : t.payload = c :: rest) : OwnerTakes s t (.position k c.toNat)
  | arrived (k : CarouselNo) (c : Byte) (rest : List Byte)
      (node : (s.carousel k).drive = some (lowSix t.source)) (kind : lowSix t.kind = 17)
      (payload : t.payload = c :: rest) : OwnerTakes s t (.arrived k c.toNat)
  | driveStatus (k : CarouselNo) (n f : Byte) (rest : List Byte)
      (node : (s.carousel k).drive = some (lowSix t.source)) (kind : lowSix t.kind = 18)
      (payload : t.payload = n :: f :: rest) :
      OwnerTakes s t (.driveStatus k (if n.toNat < 64 then some n.toNat else none)
        (if f.toNat = 0 then none else some f.toNat))
  | curtain (k : CarouselNo) (b : Byte) (rest : List Byte)
      (node : (s.carousel k).port = some (lowSix t.source)) (kind : lowSix t.kind = 12)
      (payload : t.payload = b :: rest) : OwnerTakes s t (.curtain k (b.toNat % 2 == 1))
  | scan (k : CarouselNo) (t3 t2 t1 t0 a2 a1 a0 w y : Byte) (rest : List Byte)
      (node : (s.carousel k).port = some (lowSix t.source)) (kind : lowSix t.kind = 8)
      (payload : t.payload = t3 :: t2 :: t1 :: t0 :: a2 :: a1 :: a0 :: w :: y :: rest) :
      OwnerTakes s t (.scan k (num4 t3 t2 t1 t0) (num3 a2 a1 a0) w.toNat y.toNat)
  | placed (k : CarouselNo) (x : Byte) (rest : List Byte)
      (node : (s.carousel k).port = some (lowSix t.source)) (kind : lowSix t.kind = 9)
      (payload : t.payload = x :: rest) : OwnerTakes s t (.placed k x.toNat)
  | ready (k : CarouselNo) (node : (s.carousel k).port = some (lowSix t.source))
      (kind : lowSix t.kind = 10) : OwnerTakes s t (.ready k)
  | skip (k : CarouselNo) (node : (s.carousel k).port = some (lowSix t.source))
      (kind : lowSix t.kind = 11) : OwnerTakes s t (.skip k)
  | gate (k : CarouselNo) (c a3 a2 a1 a0 b3 b2 b1 b0 c3 c2 c1 c0 d3 d2 d1 d0 e3 e2 e1 e0 f3 f2 f1 f0 g3 g2 g1 g0
      h3 h2 h1 h0 : Byte) (rest : List Byte)
      (node : (s.carousel k).gate = some (lowSix t.source)) (kind : lowSix t.kind = 24)
      (payload : t.payload = c :: a3 :: a2 :: a1 :: a0 :: b3 :: b2 :: b1 :: b0 :: c3 :: c2 :: c1 :: c0 :: d3 :: d2
        :: d1 :: d0 :: e3 :: e2 :: e1 :: e0 :: f3 :: f2 :: f1 :: f0 :: g3 :: g2 :: g1 :: g0 :: h3 :: h2 :: h1
        :: h0 :: rest) :
      OwnerTakes s t (.gate k c.toNat [num4 a3 a2 a1 a0, num4 b3 b2 b1 b0, num4 c3 c2 c1 c0, num4 d3 d2 d1 d0,
        num4 e3 e2 e1 e0, num4 f3 f2 f1 f0, num4 g3 g2 g1 g0, num4 h3 h2 h1 h0])
  | arrive (l t3 t2 t1 t0 : Byte) (rest : List Byte) (node : s.lanes.conveyor = some (lowSix t.source))
      (kind : lowSix t.kind = 32) (payload : t.payload = l :: t3 :: t2 :: t1 :: t0 :: rest) :
      OwnerTakes s t (.arrive l.toNat (num4 t3 t2 t1 t0))
  | laneEmpty (l : Byte) (rest : List Byte) (node : s.lanes.conveyor = some (lowSix t.source))
      (kind : lowSix t.kind = 33) (payload : t.payload = l :: rest) : OwnerTakes s t (.laneEmpty l.toNat)

/-- R140's table with the payload lengths of 10: the telegram has an owner, and its layout is `n` bytes. -/
inductive OwnerNeeds (s : State) (t : Telegram) : Nat → Prop
  | drive (k : CarouselNo) (node : (s.carousel k).drive = some (lowSix t.source))
      (kind : lowSix t.kind = 16 ∨ lowSix t.kind = 17) : OwnerNeeds s t 1
  | driveStatus (k : CarouselNo) (node : (s.carousel k).drive = some (lowSix t.source))
      (kind : lowSix t.kind = 18) : OwnerNeeds s t 2
  | scan (k : CarouselNo) (node : (s.carousel k).port = some (lowSix t.source)) (kind : lowSix t.kind = 8) :
      OwnerNeeds s t 9
  | port (k : CarouselNo) (node : (s.carousel k).port = some (lowSix t.source))
      (kind : lowSix t.kind = 9 ∨ lowSix t.kind = 12) : OwnerNeeds s t 1
  | button (k : CarouselNo) (node : (s.carousel k).port = some (lowSix t.source))
      (kind : lowSix t.kind = 10 ∨ lowSix t.kind = 11) : OwnerNeeds s t 0
  | gate (k : CarouselNo) (node : (s.carousel k).gate = some (lowSix t.source)) (kind : lowSix t.kind = 24) :
      OwnerNeeds s t 33
  | arrive (node : s.lanes.conveyor = some (lowSix t.source)) (kind : lowSix t.kind = 32) : OwnerNeeds s t 5
  | laneEmpty (node : s.lanes.conveyor = some (lowSix t.source)) (kind : lowSix t.kind = 33) : OwnerNeeds s t 1

/-- The source node is none the part has configured (R140). -/
def State.unconfigured (s : State) (node : Nat) : Prop :=
  s.lanes.conveyor ≠ some node ∧ ∀ k : CarouselNo, (s.carousel k).usesNode node = false

/-- The queue of a source of the arbiter is empty. -/
def State.queueEmpty (s : State) : Source → Prop
  | .forward => s.ring.forward = []
  | .field => s.ring.field = []
  | .reply => s.ring.replies = []
  | .notice => s.ring.notices = []

/-- The three tables of the active bank are VALID (R151). -/
def ActiveBankValid (s : State) : Prop := s.activeBank.allValid = true

end Machine

end Sys2Proof
end

