-- ==== Sys2Proof/Certificates/Slice0/Obligations.lean ====
section
/-! DEFINITION. The statements for the provers. Each says which rule or section of spec/ it comes from. A result is
given as the state the command's own effect leaves, then the end of the event (`State.finish`), which
`EndOfEventQueuesDisplaysAndKeepsTheRest` and its neighbours describe. -/

open Sys2Proof Sys2Proof.Machine

/-! ## Steps, reset and invariants -/

/-- A step takes the command at the front of the queue and runs it with the queue's rest. -/
def Obligations.StepRunsFrontCommand : Prop :=
  ∀ (c : Instr) (rest : List Instr) (s : State), s.pending = c :: rest →
    step s = exec c { s with pending := rest }

/-- With no command waiting the part goes on by itself (the model's choice, log entries 1 and 29): nothing while
RESET is held; else a handed event, else an expiry that is due, else the end of the transmission, else a
millisecond. In unaddressed mode only transmissions end. A millisecond takes one from every timer that runs, none
below 0, adds one to the count of milliseconds, and changes nothing else. The expiry that is due is the first of:
for the lowest carousel its move, dwell or idle-sweep timer (in that order), a port's presentation timer, a line's
wait timer in the order of the table, a lane's transit timer, and the session timer. A handed event joins the tail
of those handed, and a row that is taken leaves them at its first place (log entry 2). -/
def Obligations.IdlePartTakesItsOwnEvents : Prop :=
  ((∀ s : State, s.pending = [] →
    (s.resetHeld = true → step s = .next s)
    ∧ (s.serving = true →
        (∀ c rest, s.handed = c :: rest → step s = exec c s)
        ∧ (∀ c, s.handed = [] → s.dueTimer = some c → step s = exec c s)
        ∧ (∀ t, s.handed = [] → s.dueTimer = none → s.ring.transmitter = some t →
            step s = exec .transmissionComplete s)
        ∧ (s.handed = [] → s.dueTimer = none → s.ring.transmitter = none → step s = .next s.tick))
    ∧ (s.resetHeld = false → s.serving = false →
        (∀ t, s.ring.transmitter = some t → step s = exec .transmissionComplete s)
        ∧ (s.ring.transmitter = none → step s = .next s.tick)))
  ∧ ((∀ s : State,
    let t := s.tick
    let later (x : Option Nat) := x.map (fun n => n - 1)
    t = { s with
      now := s.now + 1, motion := { s.motion with carousels := t.motion.carousels }, ports := t.ports,
      lanes := { s.lanes with lanes := t.lanes.lanes },
      planner := { s.planner with orders := s.planner.orders.map (fun o => { o with
        lines := o.lines.map (fun l => { l with wait := later l.wait }) }) },
      policy := { s.policy with session := s.policy.session.map (fun x => { x with timer := x.timer - 1 }) } }
    ∧ (∀ k, t.carousel k = { s.carousel k with
        moveTimer := later (s.carousel k).moveTimer, dwellTimer := later (s.carousel k).dwellTimer,
        sweepTimer := later (s.carousel k).sweepTimer })
    ∧ (∀ k, t.port k = { s.port k with timer := later (s.port k).timer })
    ∧ (∀ j, t.lane j = { s.lane j with
        expected := (s.lane j).expected.map (fun e => { e with timer := later e.timer }) }))
  ∧ (∀ s : State,
    let motion (k : CarouselNo) : Option Instr :=
      if (s.carousel k).moveTimer = some 0 then some (.moveTimerExpiry k)
      else if (s.carousel k).dwellTimer = some 0 then some (.resumeDwellExpiry k)
      else if (s.carousel k).sweepTimer = some 0 then some (.idleSweepExpiry k) else none
    (∀ k e, motion k = some e → (∀ j < k, motion j = none) → s.dueTimer = some e)
    ∧ ((∀ k, motion k = none) →
      (∀ k : CarouselNo, (s.port k).timer = some 0 → (∀ j < k, (s.port (j : CarouselNo)).timer ≠ some 0) →
        s.dueTimer = some (.presentationTimerExpiry k))
      ∧ ((∀ k : CarouselNo, (s.port k).timer ≠ some 0) →
        (∀ before o after first l rest, s.planner.orders = before ++ o :: after → o.lines = first ++ l :: rest →
          l.wait = some 0 → (∀ x ∈ first, x.wait ≠ some 0) → (∀ y ∈ before, ∀ x ∈ y.lines, x.wait ≠ some 0) →
          s.dueTimer = some (.waitTimerExpiry o.id l.number))
        ∧ ((∀ o ∈ s.planner.orders, ∀ l ∈ o.lines, l.wait ≠ some 0) →
          (∀ j first x rest, j < 24 → (s.lane j).expected = first ++ x :: rest → x.timer = some 0 →
            (∀ y ∈ first, y.timer ≠ some 0) → (∀ h < j, ∀ y ∈ (s.lane h).expected, y.timer ≠ some 0) →
            s.dueTimer = some (.transitTimerExpiry j first.length))
          ∧ ((∀ j < 24, ∀ y ∈ (s.lane j).expected, y.timer ≠ some 0) →
            (∀ x, s.policy.session = some x → x.timer = 0 → s.dueTimer = some .sessionTimerExpiry)
            ∧ ((∀ x, s.policy.session = some x → x.timer ≠ 0) → s.dueTimer = none))))))))
  ∧ (∀ (s : State) (cs : List Instr) (c : Instr) (first rest : List Instr),
    s.hand cs = { s with handed := s.handed ++ cs }
    ∧ (s.handed = first ++ c :: rest → c ∉ first → s.take c = { s with handed := first ++ rest })
    ∧ (c ∉ s.handed → s.take c = s))

/-- The state after reset meets every invariant stated below, no tag in two slots (R7) among them. -/
def Obligations.ResetMeetsTheInvariants : Prop :=
  QueuesOk State.reset ∧ CountersOk State.reset.ring.counters ∧ TablesOk State.reset
    ∧ ActiveBankValid State.reset ∧ NodesDistinct State.reset ∧ TagsDistinct State.reset

/-- The release of RESET (R173): with straps 0 or 63 the part is unaddressed, with every block at its power-on
values and no notice; with straps 1 to 62 the STARTED notice, cause POWER-ON, has joined as notice 1 and, every
queue being empty, is sent in the same event (R145). In the notice the service strap is an enumerated value, high 0
and low 1: R173 gives no byte for it, and log entry 12 reads it so. `State.reset` is that state for the straps of
log entry 6. (What the release keeps of the model's own queue, and that an operand of 64 or more is read by its six
pins, are log entry 45.) RESET applied (R173, R146): the transmission is abandoned, the receiver waits, and nothing
else changes; while it is held nothing is taken. (Log entry 31.) -/
def Obligations.ResetHoldsAndPowerOnStarts : Prop :=
  ((∀ (adr : Nat) (svc : Bool) (s : State), adr % 64 = 0 ∨ adr % 64 = 63 →
    exec (.powerOn adr svc) s = .next { pending := s.pending, address := adr % 64, serviceHigh := svc })
  ∧ (∀ (adr : Nat) (svc : Bool) (s : State), 1 ≤ adr % 64 → adr % 64 ≤ 62 →
    exec (.powerOn adr svc) s = .next
      { pending := s.pending, address := adr % 64, serviceHigh := svc,
        ring := { transmitter := some ⟨0, BitVec.ofNat 8 (adr % 64), 3, 32,
          [0, 1, 6, 19, BitVec.ofNat 8 (adr % 64), (if svc then 0 else 1), 0]⟩ },
        command := { noticeSequence := 1 } })
  ∧ (∀ s : State, exec (.powerOn 1 true) s = .next { State.reset with pending := s.pending }))
  ∧ ((∀ s : State, exec .resetAsserted s = .next
    { s with resetHeld := true,
             ring := { s.ring with transmitter := none, receiver := .waiting, lineBits := [] } })
  ∧ (∀ (c : Instr) (s : State), s.resetHeld = true → c ≠ .resetAsserted → (∀ adr svc, c ≠ .powerOn adr svc) →
      exec c s = .next s))

/-- Every step keeps the four output queues and the intake FIFO within their capacities: 8 forwarded
telegrams, one field command for a target, 4 replies, 64 notices with an OVERFLOW only as the newest, 8
commands (R142 to R144, R162, R171). -/
def Obligations.EveryStepKeepsTheQueues : Prop :=
  ∀ s t : State, QueuesOk s → step s = .next t → QueuesOk t

/-- Every step keeps the three tables of the active bank VALID (R151). Every step keeps the line counters within 0
to 65,535 (R147), and the model's tables in canonical form. Every step that starts with canonical tables and with no
tag recorded in two slots leaves no tag recorded in two slots (R7). -/
def Obligations.EveryStepKeepsBanksCountersAndTables : Prop :=
  (∀ s t : State, ActiveBankValid s → step s = .next t → ActiveBankValid t)
  ∧ (∀ s t : State, step s = .next t →
    (CountersOk s.ring.counters → CountersOk t.ring.counters) ∧ (TablesOk s → TablesOk t))
  ∧ (∀ s t : State, TablesOk s → TagsDistinct s → step s = .next t → TagsDistinct t)

/-- Every step keeps each configured node address in one carousel and one role (R140). -/
def Obligations.EveryStepKeepsNodesDistinct : Prop :=
  ∀ s t : State, NodesDistinct s → step s = .next t → NodesDistinct t

/-- Every row has an effect in every state: none stops the part (00, Reply status words: a refusal is an
answer). Where each row's own effect happens is stated row by row below. -/
def Obligations.NoRowStopsThePart : Prop :=
  ∀ (c : Instr) (s : State), ∃ t, exec c s = .next t

/-- A command's payload, as 10 lays it out, reads back as the command with every operand, whatever bytes stand
beyond its layout (R164, R177, R180). LOAD-RECORD's layout covers its record count alone, and every byte after it
reads back with the command. -/
def Obligations.CommandPayloadReadsBack : Prop :=
  (∀ (c : Instr) (src : Nat), c.wellFormed = true → c.commandSource = some src →
    (∀ p, c ≠ .badCommandNumber src p) → (∀ n bytes, c ≠ .loadRecord src n bytes) →
    ∀ beyond, parseCommand src (commandPayload c ++ beyond) = .command c)
  ∧ (∀ (src n : Nat) (bytes : List Byte), n < 256 →
    parseCommand src (commandPayload (.loadRecord src n bytes)) = .command (.loadRecord src n bytes))

/-- A good COMMAND telegram addressed to the part does what the row it spells does, whether it is taken at once or
waits (R136, R138, R163, R164). One taken at once with bytes beyond its layout does the same: they are ignored
(R164). (A command row as an arrival at the intake is log entry 4.) -/
def Obligations.CommandTelegramActsAsItsRow : Prop :=
  ∀ (c : Instr) (src : Nat) (t : Telegram) (check : BitVec 16) (s : State),
    c.wellFormed = true → c.commandSource = some src → s.serving = true → goodTelegram t check →
    lowSix t.source = src → src ≠ s.address → lowSix t.hop ≠ 0 → lowSix t.dest = s.address →
    lowSix t.kind = 1 →
    (t.payload = commandPayload c → exec (.telegramReceived t check) s = exec c s)
    ∧ (∀ beyond, t.payload = commandPayload c ++ beyond → s.accepts → (∀ p, c ≠ .badCommandNumber src p) →
      (∀ n bytes, c ≠ .loadRecord src n bytes) → exec (.telegramReceived t check) s = exec c s)

/-- A row taken at a block leaves alone what only commands, the line and the pins change: the banks (but for
the session that expires, R158), the calendar (R9), the carousels' configuration and timing (R52 to R54),
the lane settings (R102), the enables (R170), the intake, the counters and the straps. -/
def Obligations.BlockRowsLeaveSettingsAlone : Prop :=
  ∀ (c : Instr) (s t : State), c.atBlock = true → exec c s = .next t →
    t.policy.bankA = s.policy.bankA ∧ t.policy.bankB = s.policy.bankB ∧ t.policy.active = s.policy.active
    ∧ (c ≠ .sessionTimerExpiry → t.policy.session = s.policy.session)
    ∧ t.stock.calendar = s.stock.calendar
    ∧ (∀ k, (t.carousel k).fixed = (s.carousel k).fixed)
    ∧ t.lanes.conveyor = s.lanes.conveyor ∧ t.lanes.transitTimeout = s.lanes.transitTimeout
    ∧ t.command.enables = s.command.enables ∧ t.command.intake = s.command.intake
    ∧ t.command.intakeOverruns = s.command.intakeOverruns
    ∧ t.ring.counters = s.ring.counters ∧ t.ring.receiver = s.ring.receiver
    ∧ t.ring.lineBits = s.ring.lineBits
    ∧ t.address = s.address ∧ t.serviceHigh = s.serviceHigh ∧ t.resetHeld = s.resetHeld
    ∧ t.now = s.now ∧ t.pending = s.pending

/-! ## The end of an event -/

/-- The end of an event changes only the idle-sweep timers, the field command queue and what the arbiter sends (R74,
R86, R145). (The end of an event as one operation is log entries 7 and 28.) It queues the DISPLAYs of carousels 0 to
7 in that order; then a busy transmitter leaves transmitter, pointer and queues as they are, while an idle one is
given the head of the first source from the pointer on that holds a telegram, whose queue loses it, the pointer
moving past that source, and nothing where every queue is empty (R145). From the pointer on is the order forward,
field, reply, notice, in a circle. A port's DISPLAY is queued at the end of an event that changed its display while
the port is not absent, and only then (R86). A rebuild gives the eight indicators of a PRESENTING or PLACING port
R85's values at its carrier: DARK past the positions the carousel has, then HOLD, PICK-PENDING, PICK-DONE,
STORE-HERE, EMPTY-HINT and DARK by what stands at the position; the message stays, and at an IDLE or CALLING port a
rebuild changes nothing. -/
def Obligations.EndOfEventQueuesDisplaysAndKeepsTheRest : Prop :=
  (((∀ s₀ s : State,
    let t := State.finish s₀ s
    t.pending = s.pending ∧ t.handed = s.handed ∧ t.now = s.now ∧ t.address = s.address
    ∧ t.serviceHigh = s.serviceHigh ∧ t.resetHeld = s.resetHeld ∧ t.command = s.command
    ∧ t.policy = s.policy ∧ t.stock = s.stock ∧ t.planner = s.planner ∧ t.ports = s.ports
    ∧ t.lanes = s.lanes ∧ t.audit = s.audit ∧ t.motion.creations = s.motion.creations
    ∧ (∀ k, { t.carousel k with sweepTimer := none } = { s.carousel k with sweepTimer := none })
    ∧ t.ring.counters = s.ring.counters ∧ t.ring.receiver = s.ring.receiver
    ∧ t.ring.lineBits = s.ring.lineBits)
  ∧ (∀ (s₀ s : State) (k : Nat),
    ((s.port k).display ≠ (s₀.port k).display → (s.port k).absent = false →
      State.showDisplay s₀ s k = s.queueField (.port k) (.display (s.port k).display))
    ∧ ((s.port k).display = (s₀.port k).display ∨ (s.port k).absent = true → State.showDisplay s₀ s k = s)))
  ∧ ((∀ (s : State) (k : Nat),
    let p := s.port k
    let shown (c : Nat) := (List.range 8).map (s.indicatorAt k c)
    (p.work = .idle ∨ p.work = .calling → s.rebuild k = s)
    ∧ (∀ x, p.work = .presenting x → s.rebuild k =
      s.onPort k (fun p => { p with display := { p.display with indicators := shown x.carrier } }))
    ∧ (∀ c, p.work = .placing c → s.rebuild k =
      s.onPort k (fun p => { p with display := { p.display with indicators := shown c } })))
  ∧ (∀ (s : State) (k c x : Nat),
    let p := s.port k
    let content := (s.slot (k * 768 + c * 8 + x)).content
    let held := (∃ h, content = .held h) ∨ content = .blocked
    let tasked (t : PickTask) := ∃ r, p.work = .presenting r ∧ r.tasks.find? (fun t => t.position = x) = some t
    let done (lane : Nat) := ∃ r, p.work = .presenting r ∧ (∀ t ∈ r.tasks, t.position ≠ x)
      ∧ sparseFind x r.done = some lane
    let here := (∃ y, p.work = .placing y) ∧ ∃ a, p.putaway = some a ∧ a.slot % 8 = x
    let hint := content = .empty ∧ p.emptyHints = true ∧ p.mode = .store
    ((s.carousel k).positions ≤ x → s.indicatorAt k c x = .dark)
    ∧ (x < (s.carousel k).positions →
      (held → s.indicatorAt k c x = .hold)
      ∧ (¬held →
        (∀ t, tasked t → s.indicatorAt k c x = .pickPending t.lane)
        ∧ (∀ lane, done lane → s.indicatorAt k c x = .pickDone lane)
        ∧ (here → s.indicatorAt k c x = .storeHere)
        ∧ ((∀ t, ¬tasked t) → (∀ lane, ¬done lane) → ¬here →
          (hint → s.indicatorAt k c x = .emptyHint) ∧ (¬hint → s.indicatorAt k c x = .dark)))))))
  ∧ ((∀ s₀ s : State,
    let shown := (List.range 8).foldl (fun t k => State.showDisplay s₀ t k) s
    let r := { s.ring with field := shown.ring.field }
    let t := State.finish s₀ s
    (∀ x, s.ring.transmitter = some x → t.ring = r)
    ∧ (s.ring.transmitter = none →
      ((∀ x, shown.queueEmpty x) → t.ring = r)
      ∧ (∀ x before after, s.ring.pointer.fromHere = before ++ x :: after → (∀ y ∈ before, shown.queueEmpty y) →
        (∀ u rest, x = .forward → s.ring.forward = u :: rest →
          t.ring = { r with forward := rest, transmitter := some u.forwarded, pointer := .field })
        ∧ (∀ e rest, x = .field → shown.ring.field = e :: rest →
          t.ring = { r with field := rest, pointer := .reply,
                            transmitter := some (ownTelegram s.address e.dest e.command.kind e.command.payload) })
        ∧ (∀ a rest, x = .reply → s.ring.replies = a :: rest →
          t.ring = { r with replies := rest, pointer := .notice,
                            transmitter := some (ownTelegram s.address a.dest kindReply a.payload) })
        ∧ (∀ q rest, x = .notice → s.ring.notices = q :: rest →
          t.ring = { r with notices := rest, pointer := .forward,
                            transmitter := some (ownTelegram s.address 0 kindNotice q.payload) }))))
  ∧ [Source.forward, .field, .reply, .notice].map Source.fromHere
    = [[.forward, .field, .reply, .notice], [.field, .reply, .notice, .forward], [.reply, .notice, .forward, .field],
       [.notice, .forward, .field, .reply]])

/-- After an event that touched a carousel, its port or its audit record, its idle-sweep timer runs exactly
while R74's conditions hold: it is started with the delay where they hold and it stood still, runs on where
they hold and it ran, and is stopped where one fails. -/
def Obligations.IdleSweepTimerFollowsItsConditions : Prop :=
  ∀ (s₀ s : State) (k : Nat), k < 8 → idleTouched s₀ s k = true →
    let c := s.carousel k
    let holds := (s.auditRecord k).mode = .zoneCycle ∧ c.sweepDelay ≠ 0 ∧ c.state = .standing
      ∧ c.curtainBroken = false ∧ c.stops = [] ∧ (s.port k).work = .idle
    (holds → c.sweepTimer = none →
      ((State.finish s₀ s).carousel k).sweepTimer = some (c.sweepDelay * 1000))
    ∧ (holds → ∀ n, c.sweepTimer = some n → ((State.finish s₀ s).carousel k).sweepTimer = some n)
    ∧ (¬holds → ((State.finish s₀ s).carousel k).sweepTimer = none)

/-- Queueing for the field (R143): the destination is the node configured; a waiting telegram for the target is
replaced in place, else the telegram joins at the tail; the other targets' entries stand; a withdrawal removes the
target's entry alone, the others keeping their order, and nothing else changes. Without a node nothing is queued
(log entry 36). -/
def Obligations.FieldQueueHoldsOneEntryPerTarget : Prop :=
  (∀ (s : State) (x : FieldTarget) (c : FieldCommand) (d : Nat), s.fieldDest x = some d →
    (∀ before after e, s.ring.field = before ++ e :: after → e.target = x → (∀ y ∈ before, y.target ≠ x) →
      (s.queueField x c) = { s with ring := { s.ring with field := before ++ ⟨x, c, d⟩ :: after } })
    ∧ ((∀ y ∈ s.ring.field, y.target ≠ x) →
      (s.queueField x c) = { s with ring := { s.ring with field := s.ring.field ++ [⟨x, c, d⟩] } }))
  ∧ (∀ (s : State) (x : FieldTarget) (c : FieldCommand), s.fieldDest x = none → s.queueField x c = s)
  ∧ (∀ (s : State) (x : FieldTarget), s.withdrawField x =
      { s with ring := { s.ring with field := s.ring.field.filter (fun e => e.target ≠ x) } })
  ∧ (∀ (s : State) (k j : Nat), s.fieldDest (.drive k) = (s.carousel k).drive
      ∧ s.fieldDest (.port k) = (s.carousel k).port ∧ s.fieldDest (.lane j) = s.lanes.conveyor)

/-- A notice produced (R170 to R172): discarded while its class is disabled; taken into a waiting OVERFLOW's count;
placed at the tail with the next sequence; or, at 63, lost to a new OVERFLOW that names its class and kind. Every
notice has the class and the number of its place in R172's table, and the fields that its rule names, in R180's
encodings; causes, outcomes and findings have their places in their lists. (An absent enumerated value is a free
byte, log entry 8; high is 0 by log entry 12; the slot and the outcome of PUTAWAY-ENDED are log entry 13; the widths
of some counts log entry 14.) -/
def Obligations.NoticesArePlacedOrCounted : Prop :=
  (∀ (s : State) (n : Notice), noticesOk s.ring.notices →
    (s.command.enables.allows n.cls = false → s.notify n = s)
    ∧ (s.command.enables.allows n.cls = true →
      (∀ q before d x y, s.ring.notices = before ++ [⟨q, .overflow d x y⟩] →
        s.notify n = { s with
          ring := { s.ring with notices := before ++ [⟨q, .overflow (min 255 (d + 1)) x y⟩] }
          command := { s.command with noticesLost := min 65535 (s.command.noticesLost + 1) } })
      ∧ ((∀ q ∈ s.ring.notices, q.notice.isOverflow = false) →
        let next := if s.command.noticeSequence < 65535 then s.command.noticeSequence + 1 else 1
        (s.ring.notices.length ≤ 62 →
          s.notify n = { s with
            ring := { s.ring with notices := s.ring.notices ++ [⟨next, n⟩] }
            command := { s.command with noticeSequence := next } })
        ∧ (s.ring.notices.length = 63 →
          s.notify n = { s with
            ring := { s.ring with notices := s.ring.notices ++ [⟨next, .overflow 1 n.cls n.code⟩] }
            command := { s.command with noticeSequence := next,
                                        noticesLost := min 65535 (s.command.noticesLost + 1) } }))))
  ∧ (let lays (n : Notice) (c : NoticeClass) (code : Nat) (fields : List Byte) :=
    n.cls = c ∧ n.code = code ∧ n.fields = fields
  let one (o : Option Nat) := be1 (o.getD 255)
  let two (o : Option Nat) := be2 (o.getD 65535)
  (∀ o s l a n x, lays (.orderShort o s l a n x) .order 1
    (be2 o ++ be1 s ++ be1 l ++ be3 a ++ be1 n ++ be1 x.code))
  ∧ (∀ o s q j p n f, lays (.orderComplete o s q j p n f) .order 2
    (be2 o ++ be1 s ++ be2 q ++ be1 j ++ be1 p ++ be1 n ++ be1 f))
  ∧ (∀ j t o s, lays (.transitLost j t o s) .lane 3 (be1 j ++ be4 t ++ be2 o ++ be1 s))
  ∧ (∀ j t o n, lays (.lateArrival j t o n) .lane 4 (be1 j ++ be4 t ++ be2 o ++ be2 n))
  ∧ (∀ j t e, lays (.misrouted j t e) .lane 5 (be1 j ++ be4 t ++ one e))
  ∧ (∀ j h n a l, lays (.laneReady j h n a l) .lane 6 (be1 j ++ be1 h ++ be1 n ++ be1 a ++ be1 l))
  ∧ (∀ j h a l x t f, lays (.laneEmptied j h a l x t f) .lane 7
    (be1 j ++ be1 h ++ be1 a ++ be1 l ++ be1 x ++ be1 t ++ be1 f))
  ∧ (∀ j x, lays (.laneOpenFailed j x) .lane 8 (be1 j ++ be1 x.code))
  ∧ (∀ k n, lays (.portUnderrun k n) .port 9 (be1 k ++ be2 n))
  ∧ (∀ k c t q, lays (.presentationTimeout k c t q) .port 10 (be1 k ++ be1 c ++ be1 t ++ be2 q))
  ∧ (∀ k t a w y i x, lays (.putawayEnded k t a w y i x none) .port 11
    (be1 k ++ be4 t ++ be3 a ++ be1 w ++ be1 y ++ two i ++ be1 x.code ++ [Config.absentEnum]))
  ∧ (∀ k t a w y i x u, lays (.putawayEnded k t a w y i x (some u)) .port 11
    (be1 k ++ be4 t ++ be3 a ++ be1 w ++ be1 y ++ two i ++ be1 x.code ++ be1 u.code))
  ∧ (∀ k n, lays (.portAbsent k n) .port 12 (be1 k ++ one n))
  ∧ (∀ k x c, lays (.carouselFault k x c none) .motion 13 (be1 k ++ be1 x.code ++ be1 c ++ [Config.absentEnum, 0]))
  ∧ (∀ k x c p t, lays (.carouselFault k x c (some (p, t))) .motion 13
    (be1 k ++ be1 x.code ++ be1 c ++ be1 p.code ++ be1 t))
  ∧ (∀ k n, lays (.carouselYielded k n) .motion 14 (be1 k ++ be1 n))
  ∧ (∀ k e, lays (.auditDiscrepancy k e) .audit 15 (be1 k ++ be2 e.sequence ++ be2 e.slot ++ be1 e.kind.code
    ++ be4 (e.expected.getD 0) ++ be4 (e.observed.getD 0) ++ two e.other))
  ∧ (∀ k z n c, lays (.auditZoneCertified k z n c) .audit 16 (be1 k ++ be1 z ++ be1 n ++ be1 c))
  ∧ (∀ k n, lays (.gateSilent k n) .audit 17 (be1 k ++ one n))
  ∧ (∀ k i t a w y, lays (.dateAhead k i t a w y) .stock 18 (be1 k ++ be2 i ++ be4 t ++ be3 a ++ be1 w ++ be1 y))
  ∧ (∀ a high all, lays (.started a high all) .system 19
    (be1 a ++ be1 (if high then 0 else 1) ++ be1 (if all then 1 else 0)))
  ∧ (∀ o r i, lays (.restarted o r i) .system 20 (be1 o ++ be2 r ++ be1 i))
  ∧ (∀ s n, lays (.commandOverrun s n) .system 21 (be1 s ++ be1 n))
  ∧ (∀ t m o n f, lays (.loadAborted t m o n f) .system 22
    (be1 t.code ++ be1 m.code ++ be1 o ++ be2 n ++ be1 (if f then 1 else 0)))
  ∧ (∀ x n, lays (.bankSwitched x n) .system 23 (be1 x.code ++ be2 n))
  ∧ (∀ d c k, lays (.overflow d c k) .system 24 (be1 d ++ be1 c.code ++ be1 k))
  ∧ [ShortCause.notAvailable, .unknownArticle, .waitExpired].map ShortCause.code = [0, 1, 2]
  ∧ [PutawayCause.refused, .unavailable, .callFailed, .carrierLeft, .timeout, .noSlot, .foundElsewhere, .absent].map
    PutawayCause.code = [0, 1, 2, 3, 4, 5, 6, 7]
  ∧ [PutawayOutcome.badDate, .unknownArticle, .duplicateTag, .dateAhead, .noSpace, .storeFull].map PutawayOutcome.code
    = [0, 1, 2, 3, 4, 5]
  ∧ [Finding.missing, .unexpected, .swapped, .foreign, .corrected, .displaced].map Finding.code = [0, 1, 2, 3, 4, 5])

/-! ## The line (07) -/

/-- A cut-short or over-long telegram raises the frame-error count, one that fails its check word the check-error
count, and neither has another effect (R135, R147). A good telegram with hop count 0 that is no return is discarded
and counted, in unaddressed mode too (R136, R148); in unaddressed mode every other one is forwarded, and no row but
the line's, RESET and power-on has an effect. (Log entry 31.) The symbol code (R176): a byte is a low start bit, its
eight bits from the least significant, and a high stop bit, a start marker ten low bits; a telegram is its marker
and its bytes; RING-OUT has the level of the transmission under way, and is high where the line idles. The receiver
takes ten levels from a falling start as a symbol, a high level between symbols as idle, and a spoiled symbol as a
free value (log entry 53). At each symbol (R135): a marker begins a telegram and cuts short one under way; a length
above 56 ends it as too long; the last check byte completes it; before a marker a byte is passed over; under RESET
nothing is taken. So the symbols of a telegram sent raise exactly its reception, which waits at the tail of the
queue. (That the levels are no row of the table is log entry 30.) -/
def Obligations.SpoiledTelegramsAreCountedAndUnaddressedPartRepeats : Prop :=
  ((∀ s : State, s.resetHeld = false →
    (∀ cause, exec (.frameError cause) s = .next (State.finish s
      (s.count (fun c => { c with frameErrors := min 65535 (c.frameErrors + 1) }))))
    ∧ (∀ t check, t.payload.length ≤ 56 → t.checkWord ≠ check →
      exec (.telegramReceived t check) s = .next (State.finish s
        (s.count (fun c => { c with checkErrors := min 65535 (c.checkErrors + 1) })))))
  ∧ ((∀ (s : State) (t : Telegram) (check : BitVec 16), s.resetHeld = false → goodTelegram t check →
    lowSix t.hop = 0 → (s.serving = true → lowSix t.source ≠ s.address) →
    exec (.telegramReceived t check) s = .next (State.finish s
      (s.count (fun c => { c with hopExpiries := min 65535 (c.hopExpiries + 1) }))))
  ∧ (∀ s : State, s.resetHeld = false → s.address = 0 ∨ s.address = 63 →
    (∀ t check, goodTelegram t check → lowSix t.hop ≠ 0 →
      exec (.telegramReceived t check) s = .next (State.finish s (s.forwards t)))
    ∧ (∀ c : Instr, c.atBlock = true ∨ c.commandSource.isSome = true ∨ (∃ n w y, c = .setCalendarBroadcast n w y) →
      exec c s = .next s))))
  ∧ (((∀ b : Byte, (Symbol.data b).levels = [false, b.getLsbD 0, b.getLsbD 1, b.getLsbD 2, b.getLsbD 3, b.getLsbD 4,
      b.getLsbD 5, b.getLsbD 6, b.getLsbD 7, true])
    ∧ Symbol.marker.levels = [false, false, false, false, false, false, false, false, false, false]
    ∧ (∀ t : Telegram, t.symbols = .marker :: t.wire.map .data ∧ t.symbols.length = t.payload.length + 8
      ∧ t.levels = t.symbols.flatMap Symbol.levels ∧ t.duration = t.levels.length)
    ∧ (∀ (s : State) (n : Nat),
      (∀ t, s.resetHeld = false → s.ring.transmitter = some t → s.ringOut n = t.levels.getD n true)
      ∧ (s.resetHeld = true ∨ s.ring.transmitter = none → s.ringOut n = true)))
  ∧ (∀ s : State, s.ring.lineBits = [] →
    (∀ x : Symbol, s.feedLevels x.levels = s.feedSymbol x)
    ∧ s.feedLevels [true] = s
    ∧ (∀ mid : List Bool, s.resetHeld = false → mid.length = 8 → true ∈ mid →
      s.feedLevels (false :: mid ++ [false]) =
        match Config.spoiledSymbol (BitVec.ofNat 10 (levelsValue (false :: mid ++ [false]))) with
        | some b => s.feedSymbol (.data b)
        | none => s))
  ∧ (∀ s : State,
    let at_ (r : Receiver) : State := { s with ring := { s.ring with receiver := r } }
    let raised (r : Receiver) (c : Instr) : State := { at_ r with pending := s.pending ++ [c] }
    (s.resetHeld = true → ∀ x, s.feedSymbol x = s)
    ∧ (s.resetHeld = false →
      (s.ring.receiver = .waiting →
        s.feedSymbol .marker = at_ (.assembling []) ∧ ∀ b, s.feedSymbol (.data b) = s)
      ∧ (∀ bytes, s.ring.receiver = .assembling bytes →
        let complete (t : Telegram) (check : BitVec 16) (b : Byte) := t.payload.length ≤ 255
          ∧ bytes ++ [b] = t.checked ++ be2 check.toNat
        let long (b : Byte) := bytes.length = 4 ∧ 56 < b.toNat
        s.feedSymbol .marker = raised (.assembling []) (.frameError .cutShort)
        ∧ (∀ b, long b → s.feedSymbol (.data b) = raised .waiting (.frameError .tooLong))
        ∧ (∀ b t check, complete t check b → s.feedSymbol (.data b) = raised .waiting (.telegramReceived t check))
        ∧ (∀ b, ¬long b → (∀ t check, ¬complete t check b) →
          s.feedSymbol (.data b) = at_ (.assembling (bytes ++ [b]))))
      ∧ (∀ t : Telegram, s.ring.receiver = .waiting → t.payload.length ≤ 56 →
        t.symbols.foldl State.feedSymbol s = raised .waiting (.telegramReceived t t.checkWord)))))

/-- A good telegram with the part's own source is removed and counted, whatever its hop count, and handed on by
its kind and destination (R136, R137). -/
def Obligations.ReturnsAreRemovedAndHandedOn : Prop :=
  ∀ (s : State) (t : Telegram) (check : BitVec 16), s.serving = true → NodesDistinct s → goodTelegram t check →
    lowSix t.source = s.address →
    let counted := s.count (fun c => { c with returns := min 65535 (c.returns + 1) })
    let motion := lowSix t.kind = 20 ∨ lowSix t.kind = 21 ∨ lowSix t.kind = 22
    (∀ k : CarouselNo, motion → (s.carousel k).drive = some (lowSix t.dest) →
      exec (.telegramReceived t check) s = .next (State.finish s (counted.hand [.returnedMotionTelegram k])))
    ∧ (∀ k : CarouselNo, lowSix t.kind = 28 → (s.carousel k).port = some (lowSix t.dest) →
      exec (.telegramReceived t check) s = .next (State.finish s (counted.hand [.returnedDisplay k])))
    ∧ (∀ b rest, lowSix t.kind = 34 → s.lanes.conveyor = some (lowSix t.dest) → t.payload = b :: rest →
      exec (.telegramReceived t check) s = .next (State.finish s (counted.hand [.returnedLaneOpen b.toNat])))
    ∧ ((motion → ∀ k : CarouselNo, (s.carousel k).drive ≠ some (lowSix t.dest)) →
      (lowSix t.kind = 28 → ∀ k : CarouselNo, (s.carousel k).port ≠ some (lowSix t.dest)) →
      (lowSix t.kind = 34 → s.lanes.conveyor ≠ some (lowSix t.dest)) →
      exec (.telegramReceived t check) s = .next (State.finish s counted))

/-- A telegram passing by whose kind the active table PASSes joins the forward queue, or is lost and counted where 8
stand there (R139, R141, R142); it leaves with its hop count one lower and all else as received. The other
dispositions of a telegram that is not guarded (R139, R140): TAKE delivers to the owner and does not forward;
OBSERVE does both; DROP removes and counts; without a configured source TAKE removes and counts and OBSERVE
forwards. A payload shorter than its owner's layout is not delivered and is counted as a discard, forwarded under
OBSERVE and not under TAKE (R140); a kind outside its configured source's row has no owner, as an unconfigured
source has none. -/
def Obligations.PassingTelegramsAreDisposedOf : Prop :=
  (((∀ (s : State) (t : Telegram) (check : BitVec 16), s.classifies t → goodTelegram t check →
    s.entryFor t = .pass → exec (.telegramReceived t check) s = .next (State.finish s (s.forwards t)))
  ∧ (∀ t : Telegram, lowSix t.hop ≠ 0 →
    t.forwarded.dest = t.dest ∧ t.forwarded.source = t.source ∧ t.forwarded.kind = t.kind
    ∧ t.forwarded.payload = t.payload ∧ lowSix t.forwarded.hop + 1 = lowSix t.hop))
  ∧ (∀ (s : State) (t : Telegram) (check : BitVec 16), s.classifies t → goodTelegram t check →
    (∀ k, ¬ s.guardedFor t k) →
    let discarded := s.count (fun c => { c with discards := min 65535 (c.discards + 1) })
    (∀ c, NodesDistinct s → OwnerTakes s t c →
      (s.entryFor t = .take → exec (.telegramReceived t check) s = .next (State.finish s (s.hand [c])))
      ∧ (s.entryFor t = .observe →
        exec (.telegramReceived t check) s = .next (State.finish s ((s.forwards t).hand [c]))))
    ∧ (s.unconfigured (lowSix t.source) →
      (s.entryFor t = .take → exec (.telegramReceived t check) s = .next (State.finish s discarded))
      ∧ (s.entryFor t = .observe →
        exec (.telegramReceived t check) s = .next (State.finish s (s.forwards t))))
    ∧ (s.entryFor t = .drop → exec (.telegramReceived t check) s = .next (State.finish s discarded))))
  ∧ (∀ (s : State) (t : Telegram) (check : BitVec 16), s.classifies t → goodTelegram t check →
    (∀ k, ¬ s.guardedFor t k) →
    let discards (u : State) := u.count (fun c => { c with discards := min 65535 (c.discards + 1) })
    (∀ n, NodesDistinct s → OwnerNeeds s t n → t.payload.length < n →
      (s.entryFor t = .take → exec (.telegramReceived t check) s = .next (State.finish s (discards s)))
      ∧ (s.entryFor t = .observe →
        exec (.telegramReceived t check) s = .next (State.finish s (discards (s.forwards t)))))
    ∧ ((∀ n, ¬ OwnerNeeds s t n) →
      (s.entryFor t = .take → exec (.telegramReceived t check) s = .next (State.finish s (discards s)))
      ∧ (s.entryFor t = .observe →
        exec (.telegramReceived t check) s = .next (State.finish s (s.forwards t)))))

/-- A guarded motion telegram (R141): PASS forwards it; OBSERVE forwards it and hands it to the Motion Unit; TAKE
and DROP remove it and raise the guarded count alone. (That OBSERVE hands on a payload shorter than MOVE's or JOG's
layout too is the model's reading, log entry 22.) -/
def Obligations.GuardedMotionTelegrams : Prop :=
  ∀ (s : State) (t : Telegram) (check : BitVec 16) (k : CarouselNo), s.classifies t → goodTelegram t check →
    NodesDistinct s → s.guardedFor t k →
    (s.entryFor t = .pass → exec (.telegramReceived t check) s = .next (State.finish s (s.forwards t)))
    ∧ (s.entryFor t = .observe → exec (.telegramReceived t check) s = .next (State.finish s
        ((s.forwards t).hand [.foreignMotionTelegram k (lowSix t.source)])))
    ∧ (s.entryFor t = .take ∨ s.entryFor t = .drop → exec (.telegramReceived t check) s = .next (State.finish s
        (s.count (fun c => { c with guarded := min 65535 (c.guarded + 1) }))))

/-- Telegrams to the part of a kind other than COMMAND are discarded and counted; a broadcast joins the forward
queue, and one that is a COMMAND SET-CALENDAR acts on the calendar too, without a reply, when the intake FIFO is
empty (R138, R165). Where the FIFO is not empty the broadcast SET-CALENDAR waits at its tail, or at 8 waiting is
discarded with its count and its COMMAND-OVERRUN notice (R163, R165); one too short for its layout has no effect but
its forwarding. -/
def Obligations.BroadcastsAreForwarded : Prop :=
  (∀ (s : State) (t : Telegram) (check : BitVec 16), s.serving = true → goodTelegram t check →
    lowSix t.source ≠ s.address → lowSix t.hop ≠ 0 →
    (lowSix t.dest = s.address → lowSix t.kind ≠ 1 →
      exec (.telegramReceived t check) s = .next (State.finish s
        (s.count (fun c => { c with discards := min 65535 (c.discards + 1) }))))
    ∧ (lowSix t.dest = 63 → (lowSix t.kind ≠ 1 ∨ t.payload.head? ≠ some 4) →
      exec (.telegramReceived t check) s = .next (State.finish s (s.forwards t)))
    ∧ (∀ w y rest, lowSix t.dest = 63 → lowSix t.kind = 1 → t.payload = 4 :: w :: y :: rest →
      s.command.intake = [] →
      exec (.telegramReceived t check) s = .next (State.finish s
        (if 1 ≤ w.toNat ∧ w.toNat ≤ 53 ∧ y.toNat ≤ 99 then
          { s.forwards t with stock := { s.stock with
              calendar := ⟨w.toNat, y.toNat, y.toNat * 53 + (w.toNat - 1), true⟩ } }
        else s.forwards t))))
  ∧ (∀ (s : State) (t : Telegram) (check : BitVec 16), s.serving = true → goodTelegram t check →
    lowSix t.source ≠ s.address → lowSix t.hop ≠ 0 → lowSix t.dest = 63 → lowSix t.kind = 1 →
    (∀ rest, t.payload = 4 :: rest → rest.length < 2 → s.command.intake = [] →
      exec (.telegramReceived t check) s = .next (State.finish s (s.forwards t)))
    ∧ (∀ rest, t.payload = 4 :: rest → s.command.intake.length < 8 →
      exec (.telegramReceived t check) s = .next (State.finish s
        ({ s.forwards t with command := { s.command with
            intake := s.command.intake ++ [⟨lowSix t.source, t.payload, true⟩] } } : State).pumpAll))
    ∧ (∀ rest, t.payload = 4 :: rest → 8 ≤ s.command.intake.length →
      exec (.telegramReceived t check) s = .next (State.finish s
        (({ s.forwards t with command := { s.command with
            intakeOverruns := min 65535 (s.command.intakeOverruns + 1) } } : State).notify
          (.commandOverrun (lowSix t.source) 4)).pumpAll)))

/-- A COMMAND that cannot be taken, 4 replies standing in the reply queue, waits at the tail of the intake FIFO;
where 8 wait already it is discarded with its count and its COMMAND-OVERRUN notice (R162, R163). The Command Unit's
own refusals (R164): a payload that spells no command is answered BAD-ARGUMENT under its number, an empty one under
0; a restart from a node other than 0 is answered NOT-PERMITTED. Nothing else happens. A reply joins the tail of the
reply queue. A payload spells no command where it is empty, where its number is none of 1 to 32, or where it is
shorter than its command's layout, SET-ZONE-MAP's, LOAD-SLOTS' and ORDER's following the count they declare, and
LOAD-RECORD's the record count alone; a full payload spells one. (A HOLD-RELEASE with an unknown form spells none by
log entry 16.) -/
def Obligations.CommandsWaitOrAreRefused : Prop :=
  (∀ (s : State) (t : Telegram) (check : BitVec 16), s.serving = true → goodTelegram t check →
    lowSix t.source ≠ s.address → lowSix t.hop ≠ 0 → lowSix t.dest = s.address → lowSix t.kind = 1 →
    s.ring.replies.length = 4 → (∀ e rest, s.command.intake = e :: rest → e.broadcast = false) →
    (s.command.intake.length < 8 →
      exec (.telegramReceived t check) s = .next (State.finish s { s with command := { s.command with
        intake := s.command.intake ++ [⟨lowSix t.source, t.payload, false⟩] } }))
    ∧ (s.command.intake.length = 8 →
      exec (.telegramReceived t check) s = .next (State.finish s
        (({ s with command := { s.command with
            intakeOverruns := min 65535 (s.command.intakeOverruns + 1) } } : State).notify
          (.commandOverrun (lowSix t.source) ((t.payload.head?.map BitVec.toNat).getD 0))))))
  ∧ ((∀ (s : State) (src : Nat) (p : List Byte), s.accepts → spellsNone src p = true →
    exec (.badCommandNumber src p) s = .next (State.finish s
      (s.placeReply src ((p.head?.map BitVec.toNat).getD 0) .badArgument [])))
  ∧ (∀ (s : State) (src : Nat), s.accepts → src ≠ 0 →
    exec (.restartOps src) s = .next (State.finish s (s.placeReply src 31 .notPermitted []))
    ∧ exec (.restartAll src) s = .next (State.finish s (s.placeReply src 32 .notPermitted [])))
  ∧ (∀ src n rest, spellsNone src [] = true
      ∧ (BitVec.toNat n = 0 ∨ 32 < BitVec.toNat n → spellsNone src (n :: rest) = true))
  ∧ (∀ (src : Nat) (n : Byte) (p : List Byte),
    (∀ x ∈ [(1, 0), (2, 7), (3, 0), (4, 2), (5, 7), (6, 7), (8, 9), (9, 1), (10, 1), (11, 1), (12, 1), (13, 1), (14, 3),
        (15, 7), (16, 2), (19, 0), (20, 2), (21, 1), (22, 4), (23, 0), (25, 2), (26, 3), (27, 3), (28, 2), (29, 1),
        (30, 6), (31, 0), (32, 0)],
      n.toNat = x.1 → (spellsNone src (n :: p) = true ↔ p.length < x.2))
    ∧ (n.toNat = 7 → (p.length < 3 → spellsNone src (n :: p) = true)
      ∧ ∀ k f z rest, p = k :: f :: z :: rest → (spellsNone src (n :: p) = true ↔ rest.length < BitVec.toNat z))
    ∧ (n.toNat = 17 → (p = [] → spellsNone src (n :: p) = true)
      ∧ ∀ r rest, p = r :: rest → (spellsNone src (n :: p) = true ↔ rest.length < 12 * BitVec.toNat r))
    ∧ (n.toNat = 18 → (p.length < 12 → spellsNone src (n :: p) = true)
      ∧ ∀ a b f rest, p = a :: b :: f :: rest → 12 ≤ p.length →
        (spellsNone src (n :: p) = true ↔ 2 < BitVec.toNat f))
    ∧ (n.toNat = 24 → (p.length < 9 → spellsNone src (n :: p) = true)
      ∧ ∀ first l rest, p = first ++ l :: rest → first.length = 8 →
        (spellsNone src (n :: p) = true ↔ rest.length < 5 * BitVec.toNat l)))
  ∧ (∀ (s : State) (dest number : Nat) (st : Status) (data : List Byte),
      s.placeReply dest number st data =
        { s with ring := { s.ring with replies := s.ring.replies ++ [⟨dest, number, st, data⟩] } }))

/-- The end of a transmission (R145): from the pointer on, the first source that holds a telegram is chosen, its
head leaves for the transmitter, and the pointer moves past it; with every queue empty the transmitter falls idle
and the pointer stays. In the same event the intake FIFO gives up its head while the head is a broadcast or fewer
than 4 replies stand in the reply queue (R144, R163), each command taken having its row's own effect and reply, a
payload that spells none its refusal, a broadcast SET-CALENDAR its effect without a reply. The part's own telegrams
(R177, R142): from its address, with hop count 32, and the kind and payload of each field command, of a reply
(number, status, data) and of a notice (sequence, class, number, fields) as chapter 10 lays them out. (A command row
as an arrival at the intake is log entry 4.) -/
def Obligations.ArbiterChoosesFromThePointer : Prop :=
  ((∀ (s : State) (sent : Telegram), s.resetHeld = false → s.ring.transmitter = some sent →
    ((∀ x, s.queueEmpty x) → exec .transmissionComplete s = .next (State.finish s
      ({ s with ring := { s.ring with transmitter := none } } : State).pumpAll))
    ∧ (∀ x before after, s.ring.pointer.fromHere = before ++ x :: after → (∀ y ∈ before, s.queueEmpty y) →
      (∀ t rest, x = .forward → s.ring.forward = t :: rest →
        exec .transmissionComplete s = .next (State.finish s ({ s with ring := { s.ring with
          forward := rest, transmitter := some t.forwarded, pointer := .field } } : State).pumpAll))
      ∧ (∀ e rest, x = .field → s.ring.field = e :: rest →
        exec .transmissionComplete s = .next (State.finish s ({ s with ring := { s.ring with
          field := rest, pointer := .reply,
          transmitter := some (ownTelegram s.address e.dest e.command.kind e.command.payload) } } : State).pumpAll))
      ∧ (∀ r rest, x = .reply → s.ring.replies = r :: rest →
        exec .transmissionComplete s = .next (State.finish s ({ s with ring := { s.ring with
          replies := rest, pointer := .notice,
          transmitter := some (ownTelegram s.address r.dest kindReply r.payload) } } : State).pumpAll))
      ∧ (∀ q rest, x = .notice → s.ring.notices = q :: rest →
        exec .transmissionComplete s = .next (State.finish s ({ s with ring := { s.ring with
          notices := rest, pointer := .forward,
          transmitter := some (ownTelegram s.address 0 kindNotice q.payload) } } : State).pumpAll))))
  ∧ ((∀ s : State,
    (s.command.intake = [] → s.pumpAll = s)
    ∧ (∀ e rest, s.command.intake = e :: rest →
      (e.broadcast = false ∧ 4 ≤ s.ring.replies.length → s.pumpAll = s)
      ∧ (e.broadcast = true ∨ s.ring.replies.length < 4 → s.pumpAll =
        (({ s with command := { s.command with intake := rest } } : State).takeCommand e).pumpAll)))
  ∧ (∀ (c : Instr) (src : Nat) (s : State), c.wellFormed = true → c.commandSource = some src →
    (∀ p, c ≠ .badCommandNumber src p) →
    ∃ n, s.takeCommand ⟨src, commandPayload c, false⟩ = (answerTo c s).placed src n
      ∧ (commandPayload c).head?.map BitVec.toNat = some n
      ∧ (s.accepts → exec c s = .next (State.finish s ((answerTo c s).placed src n))))
  ∧ (∀ (s : State) (src : Nat) (p : List Byte), spellsNone src p = true → s.takeCommand ⟨src, p, false⟩ =
      s.placeReply src ((p.head?.map BitVec.toNat).getD 0) .badArgument [])
  ∧ (∀ (s : State) (src : Nat) (w y : Byte) (rest : List Byte),
    s.takeCommand ⟨src, 4 :: w :: y :: rest, true⟩ =
      (if 1 ≤ w.toNat ∧ w.toNat ≤ 53 ∧ y.toNat ≤ 99 then
        { s with stock := { s.stock with calendar := ⟨w.toNat, y.toNat, y.toNat * 53 + (w.toNat - 1), true⟩ } }
      else s))
  ∧ (∀ (s : State) (src : Nat) (p : List Byte), spellsNone src p = true → s.takeCommand ⟨src, p, true⟩ = s)))
  ∧ ((∀ (address dest kind : Nat) (p : List Byte), ownTelegram address dest kind p
    = ⟨BitVec.ofNat 8 (dest % 64), BitVec.ofNat 8 (address % 64), BitVec.ofNat 8 (kind % 64), 32, p⟩)
  ∧ kindReply = 2 ∧ kindNotice = 3
  ∧ (∀ (c j : Nat) (l : Leg) (d : Display),
    [FieldCommand.move c l, .stop, .jog l, .display d, .laneOpen j].map (fun x => (x.kind, x.payload))
      = [(20, be1 c ++ be1 l.direction.code ++ be1 l.steps), (21, []), (22, be1 l.steps ++ be1 l.direction.code),
         (28, d.indicators.map Indicator.byte ++ be1 d.message.code), (34, be1 j)])
  ∧ (∀ r : Reply, r.payload = be1 r.number ++ be1 r.status.code ++ r.data)
  ∧ (∀ q : QueuedNotice, q.payload = be2 q.sequence ++ be1 q.notice.cls.code ++ be1 q.notice.code ++ q.notice.fields))

/-! ## Commands to the whole part (09, 01, 06) -/

/-- IDENTIFY and QUERY change nothing but for their reply (R166 to R168). IDENTIFY's data is R166's list; a query is
DONE with data, or refused as R168 says. Each of QUERY's kinds 0 to 19 answers with its record field by field (R167,
R1, R9, R51, R56, R78, R101, R102, R117, R154, R169), a long one from the index asked for on with the index of the
next part, and the enumerated values have R180's codes, a value's place in its list. (The open points of the layouts
are the model's choices: log entries 8, 10 to 12, 25, 43, 49 to 52, 55 to 60 and 66; a port's put-away and
presentation are optional groups, sent as zeros when absent; the presentation's lanes are packed, log entry 57.) -/
def Obligations.ReadingCommandsAnswerFromTheRecords : Prop :=
  ((∀ (s : State) (src : Nat), s.accepts →
    exec (.identify src) s = .next (State.finish s (s.placeReply src 1 .done
      (be2 2610 ++ be1 1 ++ be1 s.address ++ be1 (if s.serviceHigh then 0 else 1) ++ be1 s.policy.active.code
        ++ yesNo s.policy.session.isSome ++ yesNo s.stock.calendar.isSet
        ++ be1 ((List.range 8).filter (fun k => (s.carousel k).state ≠ .offline)).length
        ++ be1 s.planner.orders.length ++ be1 s.command.intake.length ++ be1 s.ring.notices.length
        ++ yesNo s.command.enables.order ++ yesNo s.command.enables.lane ++ yesNo s.command.enables.port
        ++ yesNo s.command.enables.motion ++ yesNo s.command.enables.audit ++ yesNo s.command.enables.stock
        ++ yesNo true ++ be2 s.command.intakeOverruns ++ be2 (min 65535 (s.now / 1000)))))
    ∧ (∀ kind a b, ∃ st data, exec (.query src kind a b) s = .next (State.finish s (s.placeReply src 2 st data))
        ∧ (st = .done ∨ (st = .badArgument ∨ st = .noSuchRecord) ∧ data = [])
        ∧ (20 ≤ kind ∨ (kind = 0 ∧ 6143 < a) ∨ (kind ∈ [5, 6, 7, 8, 9, 15, 16] ∧ 7 < a)
            ∨ (kind ∈ [6, 8, 16] ∧ (s.carousel a).carriers ≤ b) ∨ (kind = 12 ∧ 23 < a)
            ∨ (kind = 18 ∧ (1 < a / 256 % 256 ∨ 2 < a % 256)) → st = .badArgument)
        ∧ ((kind = 1 ∧ s.tagSlot a = none) ∨ (kind = 3 ∧ s.articleList a = [])
            ∨ (kind = 11 ∧ s.findOrder a = none)
            ∨ (kind = 8 ∧ a ≤ 7 ∧ b < (s.carousel a).carriers ∧ ∀ x ∈ (s.carousel a).stops, x.carrier ≠ b)
            → st = .noSuchRecord)
        ∧ (kind ∈ [2, 4, 10, 13, 14, 17, 19] ∨ (kind = 0 ∧ a ≤ 6143) ∨ (kind ∈ [5, 7, 9, 15] ∧ a ≤ 7)
            ∨ (kind ∈ [6, 16] ∧ a ≤ 7 ∧ b < (s.carousel a).carriers) ∨ (kind = 12 ∧ a ≤ 23) → st = .done)))
  ∧ (∀ (s : State) (src a b : Nat), s.accepts →
    (a ≤ 6143 → exec (.query src 0 a b) s = .next (State.finish s (s.placeReply src 2 .done
      (be1 (s.slot a).content.code ++ optTag (s.slot a).content.tag ++ goodsBytes (s.slot a).content.goods
        ++ (s.slot a).content.reservationBytes ++ optEnum (s.slot a).content.holdCode ++ yesNo (s.slot a).fresh
        ++ yesNo (s.mapped a)))))
    ∧ (∀ i, s.tagSlot a = some i → exec (.query src 1 a b) s = .next (State.finish s
        (s.placeReply src 2 .done (be2 i ++ be1 (s.slot i).content.code))))
    ∧ exec (.query src 4 a b) s = .next (State.finish s (s.placeReply src 2 .done
        (be1 s.stock.calendar.week ++ be1 s.stock.calendar.year ++ be2 s.stock.calendar.ordinal
          ++ yesNo s.stock.calendar.isSet)))
    ∧ exec (.query src 13 a b) s = .next (State.finish s (s.placeReply src 2 .done
        (be1 (s.lanes.conveyor.getD 255) ++ be2 s.lanes.transitTimeout)))
    ∧ exec (.query src 19 a b) s = .next (State.finish s (s.placeReply src 2 .done
        (be2 s.ring.counters.checkErrors ++ be2 s.ring.counters.frameErrors ++ be2 s.ring.counters.hopExpiries
          ++ be2 s.ring.counters.forwardOverruns ++ be2 s.ring.counters.returns ++ be2 s.ring.counters.guarded
          ++ be2 s.ring.counters.discards ++ be2 s.command.intakeOverruns ++ be2 s.command.noticesLost)))))
  ∧ ((∀ (s : State) (src a b : Nat), s.accepts →
    let gives (kind : Nat) (data : List Byte) :=
      exec (.query src kind a b) s = .next (State.finish s (s.placeReply src 2 .done data))
    let next (start per total : Nat) := be1 (if start + per < total then start + per else 255)
    let next2 (start per total : Nat) := be2 (if start + per < total then start + per else 65535)
    let node (o : Option Nat) := be1 (o.getD 255)
    let enum (o : Option Nat) : List Byte := match o with | some n => be1 n | none => [Config.absentEnum]
    let running (o : Option Nat) := yesNo o.isSome
    let places (none_ : Nat) (xs : List Nat) := (List.range 8).flatMap (fun i => be2 (xs.getD i none_))
    let lanes (f : Nat → Option Nat) :=
      let n := (List.range 8).foldl (fun n i => n * 32 + (f i).getD 255 % 32) 0
      be1 (n / 4294967296) ++ be4 n
    let c := s.carousel a
    let p := s.port a
    let l := s.lane a
    let r := s.auditRecord a
    let chosen (first n : Nat) := (List.range n).drop first |>.take 48
    (TablesOk s → ∀ keys articles tagged : List Nat, keys.Nodup → articles.Nodup → tagged.Nodup →
      (∀ x, x ∈ keys ↔ ∃ i g, (s.slot i).content.listed = some g ∧ g.article = x) →
      (∀ x, x ∈ articles ↔ ∃ i g, (s.slot i).content.goods = some g ∧ g.article = x) →
      (∀ i, i ∈ tagged ↔ (s.slot i).content.tag ≠ none) →
      gives 2 (be2 keys.length ++ be2 articles.length ++ be2 tagged.length))
    ∧ (s.articleList a ≠ [] → gives 3 (be2 (s.articleList a).length ++ next2 b 12 (s.articleList a).length
        ++ (((s.articleList a).drop b).take 12).flatMap (fun m => be2 m.slot ++ be2 m.ordinal)))
    ∧ (a ≤ 7 → gives 5 (be1 c.state.code ++ be1 c.carriers ++ be1 c.positions ++ yesNo c.bidirectional
        ++ node c.drive ++ node c.port ++ node c.gate ++ be1 c.atPort
        ++ (match c.move with
          | none => [Config.absentEnum, 0, 0, 0]
          | some ⟨w, target, some leg⟩ => be1 w.code ++ be1 target ++ be1 leg.direction.code ++ be1 leg.steps
          | some ⟨w, target, none⟩ => be1 w.code ++ be1 target ++ [Config.absentEnum, Config.unreckonedSteps])
        ++ yesNo c.curtainBroken ++ be2 c.estimate ++ yesNo c.overrideOn ++ be2 c.overrideValue ++ be2 c.dwell
        ++ be2 c.sweepDelay ++ be1 c.bypassLimit ++ enum (c.cause.map FaultCause.code) ++ node c.lastCommander
        ++ be1 (c.lastFault.getD 0) ++ yesNo c.statusSinceFault ++ running c.moveTimer ++ running c.dwellTimer
        ++ running c.sweepTimer ++ be1 c.stops.length))
    ∧ (a ≤ 7 → b < c.carriers →
      gives 6 (next b 48 c.carriers ++ (chosen b c.carriers).flatMap (fun x => be1 (c.zone x)))
      ∧ gives 16 (next b 48 c.carriers ++ (chosen b c.carriers).flatMap (fun x => be1 (r.streak x))))
    ∧ (a ≤ 7 → gives 7 (be1 c.stops.length ++ next b 10 c.stops.length ++ ((c.stops.drop b).take 10).flatMap
        (fun x => be1 x.carrier ++ be2 x.creation ++ be1 x.bypass ++ be1 x.tasks.length)))
    ∧ (∀ before x after, a ≤ 7 → b < c.carriers → c.stops = before ++ x :: after → x.carrier = b →
      (∀ y ∈ before, y.carrier ≠ b) →
      gives 8 (be1 x.carrier ++ be2 x.creation ++ be1 x.bypass ++ be1 x.tasks.length ++ x.tasks.flatMap (fun t =>
        be2 t.order ++ be1 t.line ++ be1 t.position ++ be1 t.lane ++ be1 t.window)))
    ∧ (a ≤ 7 → gives 9 (be1 p.mode.code ++ enum (p.pendingMode.map PortModeName.code) ++ be1 p.work.code
        ++ yesNo p.autoCall ++ yesNo p.emptyHints ++ be1 p.underrunDisplay.code ++ be1 p.underrunReport.code
        ++ be2 p.underrunCount ++ yesNo p.workSinceReport ++ be2 p.strayCount ++ be2 p.wrongTyreCount ++ be2 p.timeout
        ++ (match p.putaway with
          | some w => be4 w.tyre.tag ++ be3 w.tyre.article ++ be2 w.tyre.ordinal ++ be2 w.slot
          | none => [0, 0, 0, 0, 0, 0, 0, 0, 0, 0, 0])
        ++ yesNo p.absent ++ p.display.indicators.map Indicator.byte ++ be1 p.display.message.code ++ running p.timer
        ++ (match p.work with
          | .presenting x => be1 x.carrier
              ++ lanes (fun i => (x.tasks.find? (fun t => t.position = i)).map PickTask.lane) ++ be2 x.creation
              ++ be1 x.bypass ++ lanes (fun i => sparseFind i x.done)
          | .placing x => be1 x ++ lanes (fun _ => none) ++ [0, 0, 0] ++ lanes (fun _ => none)
          | .idle | .calling => [255, 0, 0, 0, 0, 0, 0, 0, 0, 0, 0, 0, 0, 0])))
    ∧ gives 10 (be1 s.planner.orders.length ++ next a 26 s.planner.orders.length
        ++ ((s.planner.orders.drop a).take 26).flatMap (fun o => be2 o.id))
    ∧ (∀ o, s.findOrder a = some o →
      let first := if b = 0 then 1 else b
      gives 11 (be2 o.id ++ be1 o.source ++ be1 o.priority ++ be1 o.chain ++ yesNo o.continues
        ++ (match o.shortage with | .shipShort => [0, 0, 0] | .hold limit => be1 1 ++ be2 limit)
        ++ be1 o.state.code ++ node o.lane ++ be2 o.acceptance ++ be1 o.unsettled
        ++ be1 (if first < o.lines.length then first + 1 else 255)
        ++ (match o.lines[first - 1]? with
          | none => []
          | some x => be1 x.number ++ be3 x.article ++ be1 x.quantity ++ be1 x.rule.code
              ++ (match x.captured with
                | some y => be1 y.window ++ be2 y.maxAge ++ yesNo y.sameCarousel
                | none => [255, 0, 0, 0])
              ++ yesNo x.fellBack ++ places 65535 (x.members.map Member.slot) ++ be1 x.members.length
              ++ be1 x.picked
              ++ (match x.extremes with | some (lo, hi) => be2 lo ++ be2 hi | none => [255, 255, 0, 0])
              ++ be1 x.short ++ be1 x.state.code
              ++ (match x.mark with | some y => [1] ++ node y.excluded | none => [0, 255]) ++ running x.wait)))
    ∧ (a ≤ 23 → gives 12 (be1 l.state.code ++ be1 l.chain ++ yesNo l.closed ++ be1 l.bound.length ++ places 0 l.bound
        ++ be1 l.quantity ++ be1 l.expected.length ++ be1 l.foreign ++ next b 4 l.expected.length
        ++ ((l.expected.drop b).take 4).flatMap (fun x => be4 x.tag ++ be2 x.order ++ be1 x.state.code)))
    ∧ gives 14 (be1 s.lanes.waiting.length ++ next a 2 s.lanes.waiting.length
        ++ ((s.lanes.waiting.drop a).take 2).flatMap (fun w => be1 w.chain ++ yesNo w.closed ++ be1 w.quantity
          ++ be1 w.members.length ++ places 0 w.members))
    ∧ (a ≤ 7 → gives 15 (be1 r.mode.code ++ be2 r.enabled.toNat ++ be1 r.quota ++ yesNo r.autoCorrect ++ node r.cursor
        ++ (List.range 16).flatMap (fun z => be1 (r.count z)) ++ be2 r.reports ++ be1 s.audit.log.length))
    ∧ (let valid (v : Bool) : List Byte := if v then [0] else [1]
      let tables (x : Bank) := valid x.trafficValid ++ valid x.articleValid ++ valid x.profileValid
      gives 17 (be1 s.policy.active.code ++ tables s.policy.bankA ++ tables s.policy.bankB
        ++ (match s.policy.session with
          | none => [Config.absentEnum, 0, 0, 0, 0, 0, 0, 0, 0, 0, 0]
          | some x => be1 x.table.code ++ be1 x.mode.code ++ be1 x.owner ++ be4 x.check.toNat
              ++ (if x.failed then [1] else [0]) ++ be2 x.count ++ [1])))
    ∧ (∀ bank : BankName, a / 256 % 256 = bank.code →
      let x := if bank = .a then s.policy.bankA else s.policy.bankB
      (a % 256 = 0 → gives 18 (next b 48 64 ++ (chosen b 64).flatMap
        (fun kind => be1 (sparseGet Disposition.pass kind x.traffic).code)))
      ∧ (a % 256 = 1 → gives 18 (next2 b 8 x.articles.length ++ ((x.articles.drop b).take 8).flatMap (fun e =>
        be3 e.1 ++ be1 e.2.profile ++ be2 e.2.zones.toNat)))
      ∧ (a % 256 = 2 → gives 18 (next b 6 16 ++ (((List.range 16).drop b).take 6).flatMap (fun i =>
        let y : Profile := sparseGet {} i x.profiles
        be1 i ++ be1 y.window ++ be2 y.maxAge ++ yesNo y.substitute ++ yesNo y.sameCarousel ++ be1 y.strategy.code
          ++ (if y.refuseAhead then [1] else [0]))))))
  ∧ ([CarouselState.offline, .standing, .moving, .interrupted, .curtainWait, .fault, .yielded].map CarouselState.code
      = [0, 1, 2, 3, 4, 5, 6]
    ∧ [Purpose.call, .storeCall, .sweep, .jog].map Purpose.code = [0, 1, 2, 3]
    ∧ [Direction.forward, .backward].map Direction.code = [0, 1]
    ∧ [FaultCause.moveTimeout, .driveFault, .driveAbsent, .positionMismatch].map FaultCause.code = [0, 1, 2, 3]
    ∧ [PortModeName.closed, .pick, .store].map PortModeName.code = [0, 1, 2]
    ∧ (∀ x c, [PortWork.idle, .calling, .presenting x, .placing c].map PortWork.code = [0, 1, 2, 3])
    ∧ [UnderrunDisplay.idlePattern, .dark, .holdLast].map UnderrunDisplay.code = [0, 1, 2]
    ∧ [UnderrunReport.every, .firstAfterWork].map UnderrunReport.code = [0, 1]
    ∧ [Message.none, .wait, .wrongTyre, .moveInProgress, .idlePattern, .storeFull, .duplicateTag].map Message.code
      = [0, 1, 2, 3, 4, 5, 6]
    ∧ (∀ j, j < 24 → [Indicator.dark, .hold, .storeHere, .emptyHint, .pickPending j, .pickDone j].map
        (fun i => i.byte.toNat) = [0, 1, 2, 3, 64 + j, 128 + j])
    ∧ [SetRule.any, .matching, .matchingOrOldest].map SetRule.code = [0, 1, 2]
    ∧ [OrderState.laneWait, .queued, .planning, .active, .complete, .cancelled, .shortClosed].map OrderState.code
      = [0, 1, 2, 3, 4, 5, 6]
    ∧ [LineState.open, .reserved, .waiting, .done, .short].map LineState.code = [0, 1, 2, 3, 4]
    ∧ [LaneState.free, .filling, .ready, .opening].map LaneState.code = [0, 1, 2, 3]
    ∧ [EntryState.inTransit, .arrived, .lost, .late].map EntryState.code = [0, 1, 2, 3]
    ∧ [AuditMode.off, .zoneCycle, .continuous].map AuditMode.code = [0, 1, 2]
    ∧ [BankName.a, .b].map BankName.code = [0, 1]
    ∧ [TableName.traffic, .article, .profile].map TableName.code = [0, 1, 2]
    ∧ [LoadMode.replace, .merge].map LoadMode.code = [0, 1]
    ∧ [Disposition.pass, .take, .observe, .drop].map Disposition.code = [0, 1, 2, 3]
    ∧ [Strategy.nearest, .grouped].map Strategy.code = [0, 1]
    ∧ (∀ (t : Tyre) o n h, [Content.empty, .inbound t, .stored t, .reserved t o n, .held h, .blocked].map Content.code
      = [0, 1, 2, 3, 4, 5])
    ∧ (∀ (t : Tyre) x g, [Hold.missing t, .unexpected x, .swapped t, .foreign x g, .vacated, .conflict t, .loaded t].map
        Hold.code = [0, 1, 2, 3, 4, 5, 6])
    ∧ [NoticeClass.order, .lane, .port, .motion, .audit, .stock, .system].map NoticeClass.code = [0, 1, 2, 3, 4, 5, 6]
    ∧ [Status.done, .clamped, .refusedState, .badArgument, .unknownArticle, .noSpace, .badCheck, .notPermitted,
        .noSuchRecord, .foreignMaster, .tooLarge].map Status.code = [0, 1, 2, 3, 4, 5, 6, 7, 8, 9, 10]))

/-- READ-AUDIT-LOG (R132) removes up to four entries from the head of the log and returns them, oldest first, with
the number left; with an empty log there is no first sequence, and what stands in its place is free (log entry 9).
AUDIT-SET (R119, R130): refused for a value out of range; else the four values are stored, and under ZONE-CYCLE the
cursor is kept, or enters the lowest active zone, whose streaks and count become 0, or becomes absent; the
certification test follows. (Which streaks are cleared is log entry 42.) What the Audit Unit does when a carousel's
zones or its number of carriers change (R130): a new number of carriers clears every streak and count, and under
ZONE-CYCLE the cursor enters the lowest active zone; a new zone map, under ZONE-CYCLE alone, has the zone under the
cursor tested for certification, or, where it is active no more, the next active zone entered. Entering a zone
changes that carousel's cursor, streaks and counts, and nothing else. -/
def Obligations.AuditIsSetAndItsLogRead : Prop :=
  (((∀ (s : State) (src : Nat), s.accepts →
    (s.audit.log = [] → exec (.readAuditLog src) s = .next (State.finish s
      (s.placeReply src 3 .done (be1 0 ++ be1 0 ++ be2 Config.noSequence.toNat))))
    ∧ (∀ e rest, s.audit.log = e :: rest → exec (.readAuditLog src) s = .next (State.finish s
      (({ s with audit := { s.audit with log := rest.drop 3 } } : State).placeReply src 3 .done
        (be1 (min 4 (rest.length + 1)) ++ be1 (rest.length - 3) ++ be2 e.sequence
          ++ (e :: rest.take 3).flatMap (fun e => be2 (e.kind.code * 8192 + e.slot) ++ be4 (e.expected.getD 0)
              ++ be4 (e.observed.getD 0) ++ be2 (e.other.getD 65535)))))))
  ∧ ((∀ (s : State) (src k m q : Nat) (zones : BitVec 16) (auto : Bool), s.accepts →
    (7 < k ∨ 2 < m ∨ q = 0 ∨ 4 < q →
      exec (.auditSet src k m zones q auto) s = .next (State.finish s (s.placeReply src 30 .badArgument [])))
    ∧ (k ≤ 7 → 1 ≤ q → q ≤ 4 →
      let t (x : AuditMode) := s.onAudit k (fun a => { a with
        mode := x, enabled := zones, quota := q, autoCorrect := auto })
      let kept := (s.auditRecord k).mode = .zoneCycle
        ∧ ∃ z, (s.auditRecord k).cursor = some z ∧ (t .zoneCycle).zoneActive k z = true
      (m = 0 → exec (.auditSet src k m zones q auto) s =
        .next (State.finish s ((t .off).placeReply src 30 .done [])))
      ∧ (m = 2 → exec (.auditSet src k m zones q auto) s =
        .next (State.finish s ((t .continuous).placeReply src 30 .done [])))
      ∧ (m = 1 → kept → exec (.auditSet src k m zones q auto) s =
        .next (State.finish s (((t .zoneCycle).certify k).placeReply src 30 .done [])))
      ∧ (m = 1 → ¬kept → exec (.auditSet src k m zones q auto) s = .next (State.finish s
        ((((t .zoneCycle).enterZone k ((t .zoneCycle).activeZones k).head?).certify k).placeReply
          src 30 .done [])))))
  ∧ (∀ (s : State) (k z : Nat),
    let a := s.auditRecord k
    let b := (s.enterZone k (some z)).auditRecord k
    b.cursor = some z ∧ b.count z = 0 ∧ (∀ y, y ≠ z → b.count y = a.count y)
    ∧ (∀ x, (x < (s.carousel k).carriers ∧ (s.carousel k).zone x = z → b.streak x = 0)
        ∧ (¬(x < (s.carousel k).carriers ∧ (s.carousel k).zone x = z) → b.streak x = a.streak x))
    ∧ s.enterZone k none = s.onAudit k (fun a => { a with cursor := none })
    ∧ (z < 16 → (s.zoneActive k z = true ↔ a.enabled.getLsbD z = true
        ∧ ∃ x < (s.carousel k).carriers, (s.carousel k).zone x = z)))))
  ∧ (∀ (s : State) (k : Nat),
    let a := s.auditRecord k
    let lowest (t : State) := t.enterZone k (t.activeZones k).head?
    let cleared := s.onAudit k (fun a => { a with streaks := [], counts := [] })
    (a.mode ≠ .zoneCycle → s.zonesChanged k = s ∧ s.carriersChanged k = cleared)
    ∧ (a.mode = .zoneCycle → s.carriersChanged k = lowest cleared
      ∧ (a.cursor = none → s.zonesChanged k = lowest s)
      ∧ (∀ z, a.cursor = some z → s.zoneActive k z = true → s.zonesChanged k = s.certify k)
      ∧ (∀ z, a.cursor = some z → s.zoneActive k z = false → s.zonesChanged k = s.enterZone k (s.zoneAfter k z)))
    ∧ (∀ z, (s.activeZones k).head? = some z ↔ z < 16 ∧ s.zoneActive k z = true
        ∧ ∀ y < z, s.zoneActive k y = false)))
  ∧ (∀ (s : State) (k z : Nat),
    let t := s.enterZone k (some z)
    t = s.onAudit k (fun a => { a with
      cursor := some z, streaks := (t.auditRecord k).streaks, counts := (t.auditRecord k).counts }))

/-- SET-CALENDAR sets the calendar from a week of 1 to 53 and a year of 0 to 99, and answers BAD-ARGUMENT otherwise,
leaving it; taken as a broadcast it does the same without a reply (R9, R165). SET-NOTICES sets the six enables
(R170). A broadcast that finds the intake FIFO not empty waits at its tail, or at 8 waiting is discarded with its
count and its COMMAND-OVERRUN notice (R163). -/
def Obligations.CalendarAndEnablesAreSet : Prop :=
  ((∀ (s : State) (src w y : Nat), s.accepts →
    (1 ≤ w ∧ w ≤ 53 ∧ y ≤ 99 → exec (.setCalendar src w y) s = .next (State.finish s
      (({ s with stock := { s.stock with calendar := ⟨w, y, y * 53 + (w - 1), true⟩ } } : State).placeReply
        src 4 .done [])))
    ∧ (¬(1 ≤ w ∧ w ≤ 53 ∧ y ≤ 99) →
      exec (.setCalendar src w y) s = .next (State.finish s (s.placeReply src 4 .badArgument []))))
  ∧ (∀ (s : State) (src w y : Nat), s.serving = true → s.command.intake = [] →
    (1 ≤ w ∧ w ≤ 53 ∧ y ≤ 99 → exec (.setCalendarBroadcast src w y) s = .next (State.finish s
      { s with stock := { s.stock with calendar := ⟨w, y, y * 53 + (w - 1), true⟩ } }))
    ∧ (¬(1 ≤ w ∧ w ≤ 53 ∧ y ≤ 99) → exec (.setCalendarBroadcast src w y) s = .next (State.finish s s)))
  ∧ (∀ (s : State) (src : Nat) (o l p m a st : Bool), s.accepts →
    exec (.setNotices src o l p m a st) s = .next (State.finish s
      (({ s with command := { s.command with enables := ⟨o, l, p, m, a, st⟩ } } : State).placeReply
        src 5 .done []))))
  ∧ (∀ (s : State) (src w y : Nat), s.serving = true → s.command.intake ≠ [] →
    (s.command.intake.length < 8 → exec (.setCalendarBroadcast src w y) s = .next (State.finish s
      ({ s with command := { s.command with
          intake := s.command.intake ++ [⟨src, [4, BitVec.ofNat 8 w, BitVec.ofNat 8 y], true⟩] } } : State).pumpAll))
    ∧ (8 ≤ s.command.intake.length → exec (.setCalendarBroadcast src w y) s = .next (State.finish s
      (({ s with command := { s.command with
          intakeOverruns := min 65535 (s.command.intakeOverruns + 1) } } : State).notify
        (.commandOverrun src 4)).pumpAll)))

/-! ## Commands at the carousels and ports (03, 04) -/

/-- CONFIGURE-CAROUSEL (R52): BAD-ARGUMENT for a figure or a node out of range, the part's own, used twice, or
configured elsewhere; REFUSED-STATE unless the carousel is OFFLINE and every slot the new figures unmap is EMPTY;
else the record takes the new values, and a change of N clears the zone map and is handed to the Audit Unit.
SET-ZONE-MAP replaces the zones of carriers f to f + k - 1 and hands the map to the Audit Unit (R53). SET-TIMING
takes its values brought into range, stops a running idle-sweep timer, and answers CLAMPED where one was out of
range (R54). (What the Audit Unit then does, `State.carriersChanged` and `State.zonesChanged`, is in
`AuditIsSetAndItsLogRead`.) -/
def Obligations.CarouselIsConfiguredMappedAndTimed : Prop :=
  (∀ (s : State) (src k n p d po g : Nat) (bi : Bool), s.accepts → TablesOk s →
    let nodesFree := ∀ x ∈ [d, po, g], 1 ≤ x ∧ x ≤ 62 ∧ x ≠ s.address ∧ s.lanes.conveyor ≠ some x
      ∧ ∀ j < 8, j ≠ k → (s.carousel j).usesNode x = false
    let valid := k ≤ 7 ∧ 16 ≤ n ∧ n ≤ 96 ∧ 1 ≤ p ∧ p ≤ 8 ∧ d ≠ po ∧ d ≠ g ∧ po ≠ g ∧ nodesFree
    let fits := ∀ i < 6144, s.mapped i = true → slotCarousel i = k →
      (slotCarrier i < n ∧ slotPosition i < p) ∨ (s.slot i).content = .empty
    (¬valid → exec (.configureCarousel src k n p bi d po g) s =
      .next (State.finish s (s.placeReply src 6 .badArgument [])))
    ∧ (valid → ¬((s.carousel k).state = .offline ∧ fits) → exec (.configureCarousel src k n p bi d po g) s =
      .next (State.finish s (s.placeReply src 6 .refusedState [])))
    ∧ (valid → (s.carousel k).state = .offline → fits →
      let t := s.onCarousel k (fun c => { c with
        carriers := n, positions := p, bidirectional := bi, drive := some d, port := some po, gate := some g,
        zones := if n = c.carriers then c.zones else [], atPort := if c.atPort < n then c.atPort else 0,
        estimate := 1500,
        lastCommander := if c.drive = some d then c.lastCommander else none,
        lastFault := if c.drive = some d then c.lastFault else none })
      exec (.configureCarousel src k n p bi d po g) s = .next (State.finish s
        ((if n = (s.carousel k).carriers then t else t.carriersChanged k).placeReply src 6 .done []))))
  ∧ ((∀ (s : State) (src k f : Nat) (zs : List Nat), s.accepts →
    let valid := k ≤ 7 ∧ 1 ≤ zs.length ∧ zs.length ≤ 48 ∧ f + zs.length ≤ (s.carousel k).carriers
      ∧ ∀ z ∈ zs, z ≤ 15
    (¬valid → exec (.setZoneMap src k f zs) s = .next (State.finish s (s.placeReply src 7 .badArgument [])))
    ∧ (valid → ∃ m : Sparse Nat,
      (∀ x, (∀ i, x = f + i → i < zs.length → sparseGet 0 x m = zs.getD i 0)
        ∧ (x < f ∨ f + zs.length ≤ x → sparseGet 0 x m = (s.carousel k).zone x))
      ∧ exec (.setZoneMap src k f zs) s = .next (State.finish s
        (((s.onCarousel k (fun c => { c with zones := m })).zonesChanged k).placeReply src 7 .done []))))
  ∧ (∀ (s : State) (src k v d i b : Nat) (on : Bool), s.accepts →
    (7 < k → exec (.setTiming src k on v d i b) s = .next (State.finish s (s.placeReply src 8 .badArgument [])))
    ∧ (k ≤ 7 → exec (.setTiming src k on v d i b) s = .next (State.finish s
      ((s.onCarousel k (fun c => { c with
        overrideOn := on, overrideValue := max 50 (min v 10000), dwell := min d 10000,
        sweepDelay := min i 3600, bypassLimit := min b 15, sweepTimer := none })).placeReply src 8
          (if 50 ≤ v ∧ v ≤ 10000 ∧ d ≤ 10000 ∧ i ≤ 3600 ∧ b ≤ 15 then .done else .clamped) [])))))

/-- CAROUSEL-ONLINE makes an OFFLINE carousel with its three nodes STANDING, of which its port is told (R55, R82);
CAROUSEL-OFFLINE makes one that is STANDING, FAULT or YIELDED, with no stop and an IDLE port, OFFLINE. CLEAR-FAULT
(R71) and RECLAIM (R73): their refusals in order; else the carousel becomes STANDING and its port is told, or,
reclaimed with a fault code, takes the cause DRIVE-FAULT as from STANDING. (That a RECLAIM that ends in FAULT does
not tell the port of STANDING is the model's reading, log entry 18.) -/
def Obligations.CarouselServiceCommands : Prop :=
  (∀ (s : State) (src k : Nat), s.accepts →
    let c := s.carousel k
    let ready := c.state = .offline ∧ c.drive ≠ none ∧ c.port ≠ none ∧ c.gate ≠ none
    let idle := (c.state = .standing ∨ c.state = .fault ∨ c.state = .yielded) ∧ c.stops = []
      ∧ (s.port k).work = .idle
    (7 < k → exec (.carouselOnline src k) s = .next (State.finish s (s.placeReply src 9 .badArgument []))
      ∧ exec (.carouselOffline src k) s = .next (State.finish s (s.placeReply src 10 .badArgument [])))
    ∧ (k ≤ 7 → ¬ready →
      exec (.carouselOnline src k) s = .next (State.finish s (s.placeReply src 9 .refusedState [])))
    ∧ (k ≤ 7 → ready → exec (.carouselOnline src k) s = .next (State.finish s
      (((s.onCarousel k (fun c => { c with state := .standing })).autoCall k).placeReply src 9 .done [])))
    ∧ (k ≤ 7 → ¬idle →
      exec (.carouselOffline src k) s = .next (State.finish s (s.placeReply src 10 .refusedState [])))
    ∧ (k ≤ 7 → idle → exec (.carouselOffline src k) s = .next (State.finish s
      ((s.onCarousel k (fun c => { c with
        state := .offline, cause := none, statusSinceFault := false, moveTimer := none, dwellTimer := none,
        sweepTimer := none })).placeReply src 10 .done []))))
  ∧ (∀ (s : State) (src k : Nat), s.accepts →
    let c := s.carousel k
    let clearable := c.state = .fault ∧ ¬(c.cause = some .driveAbsent ∧ c.statusSinceFault = false)
      ∧ c.lastFault = none
    let foreign := ∃ n, c.lastCommander = some n ∧ n ≠ s.address
    (7 < k → exec (.clearFault src k) s = .next (State.finish s (s.placeReply src 11 .badArgument []))
      ∧ exec (.reclaim src k) s = .next (State.finish s (s.placeReply src 12 .badArgument [])))
    ∧ (k ≤ 7 → ¬clearable →
      exec (.clearFault src k) s = .next (State.finish s (s.placeReply src 11 .refusedState [])))
    ∧ (k ≤ 7 → clearable → exec (.clearFault src k) s = .next (State.finish s
      ((((s.onCarousel k (fun c => { c with cause := none })).onCarousel k
        (fun c => { c with state := .standing })).autoCall k).placeReply src 11 .done [])))
    ∧ (k ≤ 7 → c.state ≠ .yielded →
      exec (.reclaim src k) s = .next (State.finish s (s.placeReply src 12 .refusedState [])))
    ∧ (k ≤ 7 → c.state = .yielded → foreign →
      exec (.reclaim src k) s = .next (State.finish s (s.placeReply src 12 .foreignMaster [])))
    ∧ (k ≤ 7 → c.state = .yielded → ¬foreign → c.lastFault = none →
      exec (.reclaim src k) s = .next (State.finish s
        (((s.onCarousel k (fun c => { c with state := .standing })).autoCall k).placeReply src 12 .done [])))
    ∧ (k ≤ 7 → c.state = .yielded → ¬foreign → c.lastFault ≠ none →
      exec (.reclaim src k) s = .next (State.finish s
        ((((s.onCarousel k (fun c => { c with state := .standing })).enterFault k .driveFault)).placeReply
          src 12 .done []))))

/-- JOG-REQUEST (R75, R61, R64): its three refusals in order; else a JOG is queued for the drive, the carousel
becomes MOVING with the jog as current move, and the move timer starts. (A direction that names no value answers
BAD-ARGUMENT by log entry 16.) REPLAN-CAROUSEL (R76): every task of the stop list is released, in list and position
order, and each line concerned is marked once, a FAULT or YIELDED carousel excluded. (The count in its reply has two
bytes by log entry 14; a mark that excludes one carousel already takes the new exclusion by log entry 47; a release
that empties a presentation completes it at once by log entry 48. What a release does is in `OrdersAreClosed`.) -/
def Obligations.JogAndReplanReachTheCarousel : Prop :=
  (∀ (s : State) (src k steps d : Nat), s.accepts →
    let c := s.carousel k
    let valid := k ≤ 7 ∧ 0 < steps ∧ steps < c.carriers ∧ (d = 0 ∨ d = 1 ∧ c.bidirectional = true)
    let free := c.state = .standing ∧ c.curtainBroken = false
      ∧ (∀ p, (s.port k).work ≠ .presenting p) ∧ ∀ x, (s.port k).work ≠ .placing x
    (¬valid → exec (.jogRequest src k steps d) s = .next (State.finish s (s.placeReply src 14 .badArgument [])))
    ∧ (valid → s.serviceHigh = false →
      exec (.jogRequest src k steps d) s = .next (State.finish s (s.placeReply src 14 .notPermitted [])))
    ∧ (valid → s.serviceHigh = true → ¬free →
      exec (.jogRequest src k steps d) s = .next (State.finish s (s.placeReply src 14 .refusedState [])))
    ∧ (valid → s.serviceHigh = true → free →
      let leg : Leg := ⟨if d = 0 then .forward else .backward, steps⟩
      let target := if d = 0 then (c.atPort + steps) % c.carriers else (c.atPort + (c.carriers - steps)) % c.carriers
      exec (.jogRequest src k steps d) s = .next (State.finish s
        (((s.onCarousel k (fun c => { c with
            state := .moving, move := some ⟨.jog, target, some leg⟩,
            moveTimer := some (min 600000
              (steps * (if c.overrideOn then c.overrideValue else c.estimate) * 3 / 2 + 2000)),
            positionsSeen := 0, lastPositionAt := 0 })).queueField (.drive k) (.jog leg)).placeReply
          src 14 .done []))))
  ∧ (∀ (s : State) (src k : Nat), s.accepts →
    let c := s.carousel k
    let free := (c.state = .standing ∨ c.state = .fault ∨ c.state = .yielded)
      ∧ ¬((∃ p, (s.port k).work = .presenting p) ∧ (s.port k).mode = .pick)
    let tasks := c.stops.flatMap (fun x => x.tasks.map (fun t => (x.carrier, t)))
    let lines := tasks.map (fun e => (e.2.order, e.2.line))
    (7 < k → exec (.replanCarousel src k) s = .next (State.finish s (s.placeReply src 13 .badArgument [])))
    ∧ (k ≤ 7 → ¬free →
      exec (.replanCarousel src k) s = .next (State.finish s (s.placeReply src 13 .refusedState [])))
    ∧ (k ≤ 7 → free → ∃ once : List (Nat × Nat), once.Nodup ∧ (∀ x, x ∈ once ↔ x ∈ lines) ∧ once.Sublist lines
      ∧ exec (.replanCarousel src k) s = .next (State.finish s
        ((once.foldl (fun t x => t.markLine x.1 x.2 (if c.state = .standing then none else some k))
          (tasks.foldl (fun t e => t.tryRelease (k * 768 + e.1 * 8 + e.2.position) e.2.order e.2.line) s)).placeReply
          src 13 .done (be2 tasks.length)))))

/-- SET-PORT (R79): the settings are taken in every state, the timeout brought into range, the absent flag cleared;
a PLACING port's display is rebuilt; auto-call turned on calls. PORT-MODE (R80): applied at once while the port is
IDLE, its display darkened, and an auto-call port calls; deferred otherwise; refused without a port node or while
the port is absent. -/
def Obligations.PortSettingsAndModeAreTaken : Prop :=
  (∀ (s : State) (src k u r timeout : Nat) (auto hints : Bool), s.accepts →
    (7 < k ∨ 2 < u ∨ 1 < r → exec (.setPort src k auto hints u r timeout) s =
      .next (State.finish s (s.placeReply src 15 .badArgument [])))
    ∧ (k ≤ 7 → u ≤ 2 → r ≤ 1 →
      let t := s.onPort k (fun p => { p with
        autoCall := auto, emptyHints := hints,
        underrunDisplay := if u = 0 then .idlePattern else if u = 1 then .dark else .holdLast,
        underrunReport := if r = 0 then .every else .firstAfterWork,
        timeout := max 10 (min timeout 900), absent := false })
      let status : Status := if 10 ≤ timeout ∧ timeout ≤ 900 then .done else .clamped
      (∀ x, (s.port k).work = .placing x → exec (.setPort src k auto hints u r timeout) s =
        .next (State.finish s ((t.rebuild k).placeReply src 15 status [])))
      ∧ ((∀ x, (s.port k).work ≠ .placing x) → auto = true → (s.port k).autoCall = false →
        exec (.setPort src k auto hints u r timeout) s =
          .next (State.finish s ((t.makeCall k).placeReply src 15 status [])))
      ∧ ((∀ x, (s.port k).work ≠ .placing x) → auto = false ∨ (s.port k).autoCall = true →
        exec (.setPort src k auto hints u r timeout) s =
          .next (State.finish s (t.placeReply src 15 status [])))))
  ∧ (∀ (s : State) (src k m : Nat), s.accepts →
    let usable := (s.carousel k).port ≠ none ∧ (s.port k).absent = false
    let mode : PortModeName := if m = 0 then .closed else if m = 1 then .pick else .store
    (7 < k ∨ 2 < m → exec (.portMode src k m) s = .next (State.finish s (s.placeReply src 16 .badArgument [])))
    ∧ (k ≤ 7 → m ≤ 2 → ¬usable →
      exec (.portMode src k m) s = .next (State.finish s (s.placeReply src 16 .refusedState [])))
    ∧ (k ≤ 7 → m ≤ 2 → usable → (s.port k).work = .idle →
      exec (.portMode src k m) s = .next (State.finish s
        ((((s.onPort k (fun p => { p with mode := mode, pendingMode := none })).onPort k (fun p => { p with
            display := ⟨[.dark, .dark, .dark, .dark, .dark, .dark, .dark, .dark], .none⟩ })).autoCall k).placeReply
          src 16 .done (be1 0))))
    ∧ (k ≤ 7 → m ≤ 2 → usable → (s.port k).work ≠ .idle →
      exec (.portMode src k m) s = .next (State.finish s
        ((s.onPort k (fun p => { p with pendingMode := if mode = p.mode then none else some mode })).placeReply
          src 16 .done (be1 1)))))

/-! ## Commands at the slots and the banks (01, 08) -/

/-- LOAD-SLOTS (R24): refused unless it carries one to four records; else each record is taken in its order, on the
state those before it left, with its own outcome in the reply. A record has the first outcome of R24's list that
applies, and only a DONE record is written, fresh, a STORED one with its wake-up. (A date code is checked where the
target carries a tyre, log entry 27; a target above 3 has the outcome BAD-ARGUMENT by log entry 16.) The searches of
the index: the slot that records a tag, the lowest of them, and the one apart from a given slot (R7); the demand for
an article is met while it is indexed already or fewer than 2,048 articles are (R6). Writing a slot gives it its
record and leaves every other slot; where the carousel's port presents or places at that carrier its display is
rebuilt, and nothing else changes (R5, R85). A slot is mapped when its carrier and its position lie within its
carousel's figures (R1). -/
def Obligations.SlotRecordsAreLoaded : Prop :=
  (((∀ (s : State) (src : Nat) (rs : List SlotArg), s.accepts →
    (rs.length = 0 ∨ 4 < rs.length →
      exec (.loadSlots src rs) s = .next (State.finish s (s.placeReply src 17 .badArgument [])))
    ∧ (1 ≤ rs.length → rs.length ≤ 4 →
      exec (.loadSlots src rs) s = .next (State.finish s ((s.loadRecords rs).1.placeReply src 17 .done
        ((s.loadRecords rs).2.flatMap (fun o => be1 o.code))))))
  ∧ (∀ s : State, s.loadRecords [] = (s, []))
  ∧ (∀ (s : State) (r : SlotArg) (rest : List SlotArg), s.loadRecords (r :: rest) =
      (((s.loadSlot r).loadRecords rest).1, s.loadOutcome r :: ((s.loadSlot r).loadRecords rest).2))
  ∧ (∀ (s : State) (r : SlotArg),
    let carries := r.target = 1 ∨ r.target = 2
    let tyre : Tyre := ⟨r.tag, r.article, r.year * 53 + (r.week - 1)⟩
    let valid := s.mapped r.slot = true ∧ r.target ≤ 3 ∧ (carries → r.tag ≠ 0 ∧ 1 ≤ r.article
      ∧ r.article ≤ 1048575 ∧ 1 ≤ r.week ∧ r.week ≤ 53 ∧ r.year ≤ 99)
    let inWork := (∃ t, (s.slot r.slot).content = .inbound t) ∨ ∃ t o n, (s.slot r.slot).content = .reserved t o n
    let taken := carries ∧ s.tagElsewhere r.tag r.slot ≠ none
    let full := carries ∧ s.demandAllows r.article = false
    (¬valid → s.loadOutcome r = .badArgument)
    ∧ (valid → inWork ∨ taken → s.loadOutcome r = .refusedState)
    ∧ (valid → ¬(inWork ∨ taken) → full → s.loadOutcome r = .noSpace)
    ∧ (valid → ¬(inWork ∨ taken) → ¬full → s.loadOutcome r = .done)
    ∧ (s.loadOutcome r ≠ .done → s.loadSlot r = s)
    ∧ (s.loadOutcome r = .done →
      (r.target = 0 → s.loadSlot r = s.writeSlot r.slot ⟨.empty, true⟩)
      ∧ (r.target = 1 → s.loadSlot r = (s.writeSlot r.slot ⟨.stored tyre, true⟩).hand [.wakeUp r.article])
      ∧ (r.target = 2 → s.loadSlot r = s.writeSlot r.slot ⟨.held (.loaded tyre), true⟩)
      ∧ (r.target = 3 → s.loadSlot r = s.writeSlot r.slot ⟨.blocked, true⟩))))
  ∧ (∀ s : State, TablesOk s →
    (∀ tag i, s.tagSlot tag = some i ↔
      (s.slot i).content.tag = some tag ∧ ∀ j < i, (s.slot j).content.tag ≠ some tag)
    ∧ (∀ tag i j, s.tagElsewhere tag i = some j ↔
      j ≠ i ∧ (s.slot j).content.tag = some tag ∧ ∀ h < j, h ≠ i → (s.slot h).content.tag ≠ some tag)
    ∧ (∃ articles : List Nat, articles.Nodup
      ∧ (∀ a, a ∈ articles ↔ ∃ i g, (s.slot i).content.goods = some g ∧ g.article = a)
      ∧ ∀ a, s.demandAllows a = true ↔ a ∈ articles ∨ articles.length < 2048)))
  ∧ ((∀ (s : State) (i : Nat) (x : Slot),
    let t := s.writeSlot i x
    let put : State := { s with stock := { s.stock with slots := t.stock.slots } }
    let serves := (∃ p, (s.port (i / 768)).work = .presenting p ∧ p.carrier = i % 768 / 8)
      ∨ (s.port (i / 768)).work = .placing (i % 768 / 8)
    t.slot i = x ∧ (∀ j, j ≠ i → t.slot j = s.slot j)
    ∧ (serves → t = put.rebuild (i / 768)) ∧ (¬serves → t = put))
  ∧ (∀ (s : State) (i : Nat), s.mapped i = true ↔ i < 6144 ∧ i % 768 / 8 < (s.carousel (i / 768)).carriers
      ∧ i % 8 < (s.carousel (i / 768)).positions))

/-- HOLD-RELEASE in its three forms (R25), each with its refusals in order; a SET with tag 0 does what CLEAR does,
and one whose tag stands in another slot names that slot. -/
def Obligations.HoldsAreReleased : Prop :=
  ∀ (s : State) (src i : Nat), s.accepts →
    let content := (s.slot i).content
    let outOfUse := (∃ h, content = .held h) ∨ content = .blocked
    let full := ∃ h tag g, content = .held h ∧ h.tag = some tag ∧ h.goods = some g
    (s.mapped i = false →
      exec (.holdReleaseAccept src i) s = .next (State.finish s (s.placeReply src 18 .badArgument []))
      ∧ exec (.holdReleaseClear src i) s = .next (State.finish s (s.placeReply src 18 .badArgument []))
      ∧ ∀ tag a w y, exec (.holdReleaseSet src i tag a w y) s =
          .next (State.finish s (s.placeReply src 18 .badArgument [])))
    ∧ (s.mapped i = true →
      (¬full → exec (.holdReleaseAccept src i) s =
        .next (State.finish s (s.placeReply src 18 .refusedState [])))
      ∧ (∀ h tag g, content = .held h → h.tag = some tag → h.goods = some g →
        exec (.holdReleaseAccept src i) s = .next (State.finish s
          (((s.writeSlot i ⟨.stored ⟨tag, g.article, g.ordinal⟩, true⟩).hand [.wakeUp g.article]).placeReply
            src 18 .done [])))
      ∧ (∀ c, c = .holdReleaseClear src i ∨ (∃ a w y, c = .holdReleaseSet src i 0 a w y) →
        (¬outOfUse → exec c s = .next (State.finish s (s.placeReply src 18 .refusedState [])))
        ∧ (outOfUse → exec c s = .next (State.finish s
          ((s.writeSlot i ⟨.empty, true⟩).placeReply src 18 .done []))))
      ∧ (∀ tag a w y, tag ≠ 0 →
        let valid := 1 ≤ a ∧ a ≤ 1048575 ∧ 1 ≤ w ∧ w ≤ 53 ∧ y ≤ 99
        (¬valid → exec (.holdReleaseSet src i tag a w y) s =
          .next (State.finish s (s.placeReply src 18 .badArgument [])))
        ∧ (valid → ¬outOfUse → exec (.holdReleaseSet src i tag a w y) s =
          .next (State.finish s (s.placeReply src 18 .refusedState [])))
        ∧ (∀ j, valid → outOfUse → s.tagElsewhere tag i = some j → exec (.holdReleaseSet src i tag a w y) s =
          .next (State.finish s (s.placeReply src 18 .refusedState (be2 j))))
        ∧ (valid → outOfUse → s.tagElsewhere tag i = none → s.demandAllows a = false →
          exec (.holdReleaseSet src i tag a w y) s = .next (State.finish s (s.placeReply src 18 .noSpace [])))
        ∧ (valid → outOfUse → s.tagElsewhere tag i = none → s.demandAllows a = true →
          exec (.holdReleaseSet src i tag a w y) s = .next (State.finish s
            (((s.writeSlot i ⟨.stored ⟨tag, a, y * 53 + (w - 1)⟩, true⟩).hand [.wakeUp a]).placeReply
              src 18 .done [])))))

/-- BANK-COPY (R152): refused while a session is open; else the shadow bank takes the active bank's three tables,
VALID. BANK-SWITCH (R159): refused while a session is open or a shadow table is INVALID (the codes of the INVALID
tables in the reply, log entry 15); else the indicator names the other bank, with its notice. -/
def Obligations.BanksAreCopiedAndSwitched : Prop :=
  ∀ (s : State) (src : Nat), s.accepts →
    (s.policy.session ≠ none →
      exec (.bankCopy src) s = .next (State.finish s (s.placeReply src 19 .refusedState []))
      ∧ exec (.bankSwitch src) s = .next (State.finish s (s.placeReply src 23 .refusedState [])))
    ∧ (s.policy.session = none → s.policy.active = .a → exec (.bankCopy src) s = .next (State.finish s
        (({ s with policy := { s.policy with bankB := { s.policy.bankA with
            trafficValid := true, articleValid := true, profileValid := true } } } : State).placeReply
          src 19 .done [])))
    ∧ (s.policy.session = none → s.policy.active = .b → exec (.bankCopy src) s = .next (State.finish s
        (({ s with policy := { s.policy with bankA := { s.policy.bankB with
            trafficValid := true, articleValid := true, profileValid := true } } } : State).placeReply
          src 19 .done [])))
    ∧ (∀ b, s.policy.session = none → s.shadowBank = b →
        ¬(b.trafficValid = true ∧ b.articleValid = true ∧ b.profileValid = true) →
        exec (.bankSwitch src) s = .next (State.finish s (s.placeReply src 23 .refusedState
          ((if b.trafficValid then [] else [0]) ++ (if b.articleValid then [] else [1])
            ++ (if b.profileValid then [] else [2])))))
    ∧ (∀ b, s.policy.session = none → s.shadowBank = b →
        b.trafficValid = true → b.articleValid = true → b.profileValid = true →
        let other : BankName := if s.policy.active = .a then .b else .a
        exec (.bankSwitch src) s = .next (State.finish s
          ((({ s with policy := { s.policy with active := other } } : State).notify
            (.bankSwitched other b.articles.length)).placeReply src 23 .done [])))

/-- LOAD-OPEN (R153), LOAD-CLOSE (R157) and the session timer's expiry (R158): the checks in order; the session that
opens, on a table INVALID from then on and under REPLACE empty; the outcome of a close, with the check and the
count; the abort with its notice. An expiry is taken whether or not commands wait. One without a session changes
nothing, and one with a session aborts it whatever time is left: both are the model's choice (log entry 5). -/
def Obligations.LoadSessionsOpenAndEnd : Prop :=
  (∀ (s : State) (src : Nat), s.accepts →
    (∀ t m, 2 < t ∨ 1 < m → exec (.loadOpen src t m) s =
      .next (State.finish s (s.placeReply src 20 .badArgument [])))
    ∧ (∀ t m, t ≤ 2 → m ≤ 1 → s.policy.session ≠ none → exec (.loadOpen src t m) s =
      .next (State.finish s (s.placeReply src 20 .refusedState [])))
    ∧ (∀ t m, t ≤ 2 → m ≤ 1 → s.policy.session = none →
      let table : TableName := if t = 0 then .traffic else if t = 1 then .article else .profile
      let b := s.shadowBank
      let opened : Bank :=
        ⟨if t = 0 ∧ m = 0 then [] else b.traffic, if t = 1 ∧ m = 0 then [] else b.articles,
          if t = 2 ∧ m = 0 then [] else b.profiles, if t = 0 then false else b.trafficValid,
          if t = 1 then false else b.articleValid, if t = 2 then false else b.profileValid⟩
      exec (.loadOpen src t m) s = .next (State.finish s
        (((s.setShadowBank opened).setSession (some ⟨table, if m = 0 then .replace else .merge, src,
          0xFFFFFFFF#32, false, 0, 10000⟩)).placeReply src 20 .done
            (be1 (if s.policy.active = .a then 1 else 0)))))
    ∧ (∀ e, s.policy.session = none → exec (.loadClose src e) s =
      .next (State.finish s (s.placeReply src 22 .refusedState [])))
    ∧ (∀ e x, s.policy.session = some x → src ≠ x.owner → exec (.loadClose src e) s =
      .next (State.finish s (s.placeReply src 22 .notPermitted [])))
    ∧ (∀ e x, s.policy.session = some x → src = x.owner →
      let data := be4 x.check.toNat ++ be2 x.count
      let ended : State := { s with policy := { s.policy with session := none } }
      let b := s.shadowBank
      let valid : Bank := { b with
        trafficValid := if x.table = .traffic then true else b.trafficValid,
        articleValid := if x.table = .article then true else b.articleValid,
        profileValid := if x.table = .profile then true else b.profileValid }
      (x.failed = true → exec (.loadClose src e) s = .next (State.finish s (ended.placeReply src 22 .noSpace data)))
      ∧ (x.failed = false → e ≠ x.check →
        exec (.loadClose src e) s = .next (State.finish s (ended.placeReply src 22 .badCheck data)))
      ∧ (x.failed = false → e = x.check → exec (.loadClose src e) s =
        .next (State.finish s ((ended.setShadowBank valid).placeReply src 22 .done data)))))
  ∧ (∀ s : State, s.serving = true →
    (∀ x, s.policy.session = some x → exec .sessionTimerExpiry s = .next (State.finish s
        (({ s.take .sessionTimerExpiry with policy := { s.policy with session := none } } : State).notify
          (.loadAborted x.table x.mode x.owner x.count x.failed))))
    ∧ (s.policy.session = none →
      exec .sessionTimerExpiry s = .next (State.finish s (s.take .sessionTimerExpiry))))

/-- LOAD-RECORD (R155, R156): its refusals in order, a bad record restarting the timer alone; else every record is
fed into the check and counted, and, until the session has failed, applied to the shadow bank, a new article
over 1,024 setting the failed mark instead. -/
def Obligations.LoadRecordsAreTaken : Prop :=
  (∀ (s : State) (src n : Nat) (bytes : List Byte), s.accepts →
    (s.policy.session = none →
      exec (.loadRecord src n bytes) s = .next (State.finish s (s.placeReply src 21 .refusedState [])))
    ∧ (∀ x, s.policy.session = some x → src ≠ x.owner →
      exec (.loadRecord src n bytes) s = .next (State.finish s (s.placeReply src 21 .notPermitted [])))
    ∧ (∀ x, s.policy.session = some x → src = x.owner →
      (n = 0 ∨ 4 < n ∨ readRecords x.table n bytes = none →
        exec (.loadRecord src n bytes) s = .next (State.finish s
          ((s.setSession (some { x with timer := 10000 })).placeReply src 21 .badArgument [])))
      ∧ (∀ items, 1 ≤ n → n ≤ 4 → readRecords x.table n bytes = some items →
        let l := items.foldl Loading.take ⟨s.shadowBank, { x with timer := 10000 }, 0, false⟩
        exec (.loadRecord src n bytes) s = .next (State.finish s
          (((s.setShadowBank l.bank).setSession (some l.session)).placeReply src 21
            (if l.session.failed then .noSpace else if l.clamped then .clamped else .done)
            (be1 l.applied ++ be2 l.session.count ++ be4 l.session.check.toNat))))))
  ∧ (∀ (l : Loading) (raw : List Byte),
    let fed : Session := { l.session with
      check := raw.foldl crcFeed32 l.session.check, count := min 65535 (l.session.count + 1) }
    (∀ item, l.session.failed = true →
      l.take (raw, item) = { l with session := fed, clamped := l.clamped || item.isClamped })
    ∧ (l.session.failed = false →
      (∀ k d, l.take (raw, .traffic k d) = ⟨{ l.bank with traffic := sparseSet .pass k d l.bank.traffic }, fed,
        l.applied + 1, l.clamped⟩)
      ∧ (∀ i p c, l.take (raw, .profile i p c) = ⟨{ l.bank with profiles := sparseSet {} i p l.bank.profiles },
        fed, l.applied + 1, l.clamped || c⟩)
      ∧ (∀ code a, sparseFind code l.bank.articles ≠ none ∨ l.bank.articles.length < 1024 →
        l.take (raw, .article code a) = ⟨{ l.bank with articles := sparseInsert code a l.bank.articles }, fed,
          l.applied + 1, l.clamped⟩)
      ∧ (∀ code a, sparseFind code l.bank.articles = none → 1024 ≤ l.bank.articles.length →
        l.take (raw, .article code a) = { l with session := { fed with failed := true } })))
  ∧ (∀ (t : TableName) (n : Nat) (bytes : List Byte), readRecords t 0 bytes = some []
    ∧ readRecords t (n + 1) bytes =
      match readRecord t (bytes.take t.recordSize), readRecords t n (bytes.drop t.recordSize) with
      | some item, some more => some ((bytes.take t.recordSize, item) :: more)
      | _, _ => none)
  ∧ (∀ k d : Byte, readRecord .traffic [k, d] =
      if k.toNat ≤ 63 then (dispositionOf? d.toNat).map (LoadItem.traffic k.toNat) else none)
  ∧ (∀ a2 a1 a0 p z1 z0 : Byte, readRecord .article [a2, a1, a0, p, z1, z0] =
      if 1 ≤ num3 a2 a1 a0 ∧ num3 a2 a1 a0 ≤ 1048575 ∧ p.toNat ≤ 15 then
        some (.article (num3 a2 a1 a0) ⟨p.toNat, BitVec.ofNat 16 (num2 z1 z0)⟩) else none)
  ∧ (∀ i w g1 g0 u c st d : Byte, readRecord .profile [i, w, g1, g0, u, c, st, d] =
      if i.toNat ≤ 15 ∧ st.toNat ≤ 1 ∧ d.toNat ≤ 1 then
        some (.profile i.toNat ⟨min w.toNat 104, min (num2 g1 g0) 520, u.toNat % 2 == 1, c.toNat % 2 == 1,
          if st.toNat = 0 then .nearest else .grouped, d.toNat == 1⟩
          (104 < w.toNat || 520 < num2 g1 g0)) else none)

/-! ## Orders and lanes by command (02, 05) -/

/-- ORDER (R28): the refusals in order, each changing nothing; else the order is bound, or refused, by the Lane Unit,
and enters the table with the next acceptance sequence, its lane judged and, where it has one, an order taken
up if none is PLANNING (R30). -/
def Obligations.OrdersAreAcceptedOrRefused : Prop :=
  ∀ (s : State) (src id pr ch po limit : Nat) (co : Bool) (lines : List LineArg), s.accepts →
    let c : Instr := .order src id pr ch co po limit lines
    let fields := id ≠ 0 ∧ pr ≤ 3 ∧ po ≤ 1 ∧ 1 ≤ lines.length ∧ lines.length ≤ 8
      ∧ ∀ l ∈ lines, 1 ≤ l.quantity ∧ l.quantity ≤ 8 ∧ 1 ≤ l.article ∧ l.article ≤ 1048575 ∧ l.rule ≤ 2
    let known := ∀ l ∈ lines, s.article l.article ≠ none
    let total := (lines.map LineArg.quantity).sum
    let sequence := if 65535 ≤ s.planner.acceptances then 1 else s.planner.acceptances + 1
    let status : Status := if po = 1 ∧ ¬(1 ≤ limit ∧ limit ≤ 1440) then .clamped else .done
    let record (lane : Option Nat) : Order := {
      id := id, source := src, priority := pr, chain := ch, continues := co,
      shortage := if po = 0 then .shipShort else .hold (max 1 (min limit 1440)),
      state := if lane = none then .laneWait else .queued, lane := lane,
      lines := (numberFrom 1 lines).map (fun x => {
        number := x.1, article := x.2.article, quantity := x.2.quantity,
        rule := if x.2.rule = 0 then .any else if x.2.rule = 1 then .matching else .matchingOrOldest }),
      acceptance := sequence }
    let entered (t : State) (o : Order) : State := { t with planner := ⟨t.planner.orders ++ [o], sequence⟩ }
    (¬fields → exec c s = .next (State.finish s (s.placeReply src 24 .badArgument [])))
    ∧ (fields → s.findOrder id ≠ none → exec c s = .next (State.finish s (s.placeReply src 24 .refusedState [])))
    ∧ (fields → s.findOrder id = none →
      (∀ before l after, lines = before ++ l :: after → (∀ x ∈ before, s.article x.article ≠ none) →
        s.article l.article = none →
        exec c s = .next (State.finish s (s.placeReply src 24 .unknownArticle (be1 (before.length + 1)))))
      ∧ (known → 16 < total → exec c s = .next (State.finish s (s.placeReply src 24 .tooLarge [])))
      ∧ (known → total ≤ 16 → 64 ≤ s.planner.orders.length →
        exec c s = .next (State.finish s (s.placeReply src 24 .noSpace [])))
      ∧ (known → total ≤ 16 → s.planner.orders.length < 64 →
        (∀ t st, s.bindOrder id ch total co = (t, .refused st) →
          exec c s = .next (State.finish s (s.placeReply src 24 st [])))
        ∧ (∀ t, s.bindOrder id ch total co = (t, .noLane) → exec c s = .next (State.finish s
          ((entered t (record none)).placeReply src 24 status (be2 sequence ++ be1 255))))
        ∧ (∀ t j, s.bindOrder id ch total co = (t, .lane j) → exec c s = .next (State.finish s
          ((((entered t (record (some j))).judgeLane j).takeUp).placeReply src 24 status
            (be2 sequence ++ be1 j))))))

/-- An order's binding (R104, R105): an unchained order takes the lowest FREE lane, or none; a chained one joins the
lane of its open chain, else its open waiting chain, each refused past 16 tyres or 8 orders, else starts a chain in
the lowest FREE lane, or waiting. A continue flag of no closes the chain. (Where both checks fail the answer is
TOO-LARGE by log entry 54.) The open chain h is held by the lowest lane that is not FREE, of chain h and not closed,
or is the first waiting chain h not closed, and by none else. A FREE lane offered anew (R106) takes the first
LANE-WAIT order by priority and acceptance, with its whole waiting chain where it has one: the lane is FILLING with
the chain's orders, mark and quantity, each becomes QUEUED with the lane as its own, and an order is taken up if
none is PLANNING. -/
def Obligations.OrdersAreBoundToLanes : Prop :=
  ((∀ (s : State) (id h t : Nat) (co : Bool),
    (∀ j, s.freeLane = some j → s.bindOrder id 0 t co = (s.onLane j (fun l => { l with
      state := .filling, chain := 0, closed := true, bound := [id], quantity := t }), .lane j))
    ∧ (s.freeLane = none → s.bindOrder id 0 t co = (s, .noLane))
    ∧ (h ≠ 0 →
      (∀ j, s.openChainLane h = some j →
        (16 < (s.lane j).quantity + t → s.bindOrder id h t co = (s, .refused .tooLarge))
        ∧ ((s.lane j).quantity + t ≤ 16 → 8 ≤ (s.lane j).bound.length →
          s.bindOrder id h t co = (s, .refused .noSpace))
        ∧ ((s.lane j).quantity + t ≤ 16 → (s.lane j).bound.length < 8 →
          s.bindOrder id h t co = (s.onLane j (fun l => { l with
            bound := l.bound ++ [id], quantity := l.quantity + t, closed := !co }), .lane j)))
      ∧ (∀ w, s.openChainLane h = none → s.openWaitingChain h = some w →
        (16 < w.quantity + t → s.bindOrder id h t co = (s, .refused .tooLarge))
        ∧ (w.quantity + t ≤ 16 → 8 ≤ w.members.length → s.bindOrder id h t co = (s, .refused .noSpace))
        ∧ (w.quantity + t ≤ 16 → w.members.length < 8 →
          s.bindOrder id h t co = ({ s with lanes := { s.lanes with
            waiting := s.lanes.waiting.map (fun w => if w.chain = h ∧ w.closed = false then
              { w with members := w.members ++ [id], quantity := w.quantity + t, closed := !co } else w) } },
            .noLane)))
      ∧ (s.openChainLane h = none → s.openWaitingChain h = none →
        (∀ j, s.freeLane = some j → s.bindOrder id h t co = (s.onLane j (fun l => { l with
          state := .filling, chain := h, closed := !co, bound := [id], quantity := t }), .lane j))
        ∧ (s.freeLane = none → s.bindOrder id h t co = ({ s with lanes := { s.lanes with
          waiting := s.lanes.waiting ++ [⟨h, !co, [id], t⟩] } }, .noLane))))
    ∧ (∀ j, s.freeLane = some j ↔ j < 24 ∧ (s.lane j).state = .free ∧ ∀ i < j, (s.lane i).state ≠ .free))
  ∧ (∀ (s : State) (j : Nat),
    let bound (t : State) (chain : Nat) (closed : Bool) (ids : List Nat) (total : Nat) := t.onLane j (fun l => { l with
      state := .filling, chain := chain, closed := closed, bound := ids, quantity := total })
    let queued (t : State) (id : Nat) := (t.onOrder id (fun o => { o with lane := some j })).setOrderState id .queued
    ((∀ o ∈ s.planner.orders, o.state ≠ .laneWait) → s.offerLane j = s)
    ∧ (∀ before o after, s.planner.orders = before ++ o :: after → o.state = .laneWait →
      (∀ x ∈ before, x.state = .laneWait → 3 - o.priority < 3 - x.priority) →
      (∀ x ∈ after, x.state = .laneWait → 3 - o.priority ≤ 3 - x.priority) →
      ((∀ w ∈ s.lanes.waiting, o.id ∉ w.members) → s.offerLane j =
        (queued (bound s 0 true [o.id] (o.lines.map Line.quantity).sum) o.id).takeUp)
      ∧ (∀ first w rest, s.lanes.waiting = first ++ w :: rest → o.id ∈ w.members →
        (∀ x ∈ first ++ rest, o.id ∉ x.members) → s.offerLane j =
          (w.members.foldl queued (bound ({ s with lanes := { s.lanes with waiting := first ++ rest } } : State)
            w.chain w.closed w.members w.quantity)).takeUp))))
  ∧ (∀ (s : State) (h : Nat),
    let holds (j : Nat) := (s.lane j).state ≠ .free ∧ (s.lane j).chain = h ∧ (s.lane j).closed = false
    let waits (w : WaitingChain) := w.chain = h ∧ w.closed = false
    (∀ j, s.openChainLane h = some j ↔ j < 24 ∧ holds j ∧ ∀ i < j, ¬holds i)
    ∧ (∀ w, s.openWaitingChain h = some w ↔ waits w
        ∧ ∃ first rest, s.lanes.waiting = first ++ w :: rest ∧ ∀ x ∈ first, ¬waits x))

/-- ORDER-CANCEL and SHORT-CLOSE (R47, R48): the refusals in order; else the remainders and reserved counts become
short, marks and waits end, the planning handed is dropped, the members are released in line and member order, the
state changes; a LANE-WAIT order leaves the table and its chain, and the end of a PLANNING order's planning takes up
the next. That closing is `State.closeOrder`, which a forced LANE-RELEASE uses too. (The handed events that a
closing drops are log entry 37.) The closing of an order's chain (R107): a chain that stands in a lane is closed
there, the lane judged, a waiting one in the list; an order that leaves a waiting chain takes its quantity with it,
and a chain left empty is gone (R103). A release (R17) makes a RESERVED slot of that line STORED, its fresh mark
kept, removes its task and its member and hands its article's wake-up, and changes nothing elsewhere. (A release
that empties a presentation completes it at once, before the event's other releases, by log entry 48.) -/
def Obligations.OrdersAreClosed : Prop :=
  ((∀ (s : State) (src id : Nat) (ends : Bool), s.accepts →
    (s.findOrder id = none →
      exec (.orderCancel src id) s = .next (State.finish s (s.placeReply src 25 .noSuchRecord []))
      ∧ exec (.shortClose src id ends) s = .next (State.finish s (s.placeReply src 26 .noSuchRecord [])))
    ∧ (∀ o, s.findOrder id = some o →
      let finished := o.state = .complete ∨ o.state = .cancelled ∨ o.state = .shortClosed
      let data := o.lines.flatMap (fun l => be1 l.picked ++ be1 (l.short + l.remainder + l.members.length))
      (src ≠ 0 → src ≠ o.source →
        exec (.orderCancel src id) s = .next (State.finish s (s.placeReply src 25 .notPermitted []))
        ∧ exec (.shortClose src id ends) s = .next (State.finish s (s.placeReply src 26 .notPermitted [])))
      ∧ (src = 0 ∨ src = o.source → finished →
        exec (.orderCancel src id) s = .next (State.finish s (s.placeReply src 25 .refusedState []))
        ∧ exec (.shortClose src id ends) s = .next (State.finish s (s.placeReply src 26 .refusedState [])))
      ∧ (src = 0 ∨ src = o.source → ¬finished →
        exec (.orderCancel src id) s = .next (State.finish s
          ((s.closeOrder o .cancelled).placeReply src 25 .done data))
        ∧ exec (.shortClose src id ends) s = .next (State.finish s
          (((if ends then s.closeChain o else s).closeOrder o .shortClosed).placeReply src 26 .done data)))))
  ∧ ((∀ (s : State) (o : Order),
    (∀ j, o.lane = some j → (s.lane j).chain = 0 → s.closeChain o = s)
    ∧ (∀ j, o.lane = some j → (s.lane j).chain ≠ 0 →
      s.closeChain o = (s.onLane j (fun l => { l with closed := true })).judgeLane j)
    ∧ (o.lane = none → s.closeChain o = { s with lanes := { s.lanes with
        waiting := s.lanes.waiting.map (fun w => if o.id ∈ w.members then { w with closed := true } else w) } })
    ∧ s.leaveWaiting o = { s with lanes := { s.lanes with
        waiting := (s.lanes.waiting.map (fun w => if o.id ∈ w.members then { w with
          members := w.members.filter (fun m => m ≠ o.id),
          quantity := w.quantity - (o.lines.map Line.quantity).sum } else w)).filter (fun w => w.members ≠ []) } }
    ∧ (∀ id, s.dropOrder id = { s with planner := { s.planner with
        orders := s.planner.orders.filter (fun o => o.id ≠ id) } }))
  ∧ (∀ (s : State) (i o n : Nat),
    (∀ t, (s.slot i).content = .reserved t o n → s.tryRelease i o n =
      ((((s.writeSlot i ⟨.stored t, (s.slot i).fresh⟩).removeTask i).onLine o n (fun l => { l with
        members := l.members.filter (fun m => m.slot ≠ i) })).hand [.wakeUp t.article]))
    ∧ ((∀ t, (s.slot i).content ≠ .reserved t o n) → s.tryRelease i o n = s))))
  ∧ (∀ (s : State) (o : Order) (x : OrderState),
    let counted := s.onOrder o.id (fun o => { o with lines := o.lines.map (fun l => { l with
      short := l.short + l.remainder + l.members.length, mark := none, wait := none }) })
    let dropped : State := { counted with handed := counted.handed.filter (fun c => !plansOrder o.id c) }
    let released := (o.lines.foldl (fun t l =>
      l.members.foldl (fun u m => u.tryRelease m.slot o.id l.number) t) dropped).setOrderState o.id x
    s.closeOrder o x = (if o.state = .laneWait then (released.leaveWaiting o).dropOrder o.id
      else if o.state = .planning then released.takeUp else released))

/-- SET-LANES (R102): refused for a node that is not free or while a lane is OPENING; else both settings change, the
timeout brought into range. LANE-CLEAR-FOREIGN (R112): the foreign count becomes 0 and the lane is judged. A lane's
readiness (R113): FILLING and fit, it becomes READY with its notice; READY and not fit, FILLING; any other lane is
left as it is. -/
def Obligations.LaneSettingsForeignCountsAndReadiness : Prop :=
  ((∀ (s : State) (src node timeout : Nat), s.accepts →
    let valid := 1 ≤ node ∧ node ≤ 62 ∧ node ≠ s.address ∧ ∀ k < 8, (s.carousel k).usesNode node = false
    let still := ∀ j < 24, (s.lane j).state ≠ .opening
    (¬valid → exec (.setLanes src node timeout) s = .next (State.finish s (s.placeReply src 27 .badArgument [])))
    ∧ (valid → ¬still →
      exec (.setLanes src node timeout) s = .next (State.finish s (s.placeReply src 27 .refusedState [])))
    ∧ (valid → still → exec (.setLanes src node timeout) s = .next (State.finish s
      (({ s with lanes := { s.lanes with
          conveyor := some node, transitTimeout := max 10 (min timeout 1800) } } : State).placeReply
        src 27 (if 10 ≤ timeout ∧ timeout ≤ 1800 then .done else .clamped) []))))
  ∧ (∀ (s : State) (src j : Nat), s.accepts →
    (23 < j → exec (.laneClearForeign src j) s = .next (State.finish s (s.placeReply src 29 .badArgument [])))
    ∧ (j ≤ 23 → exec (.laneClearForeign src j) s = .next (State.finish s
      (((s.onLane j (fun l => { l with foreign := 0 })).judgeLane j).placeReply src 29 .done
        (be1 (s.lane j).foreign))))))
  ∧ (∀ (s : State) (j : Nat),
    let l := s.lane j
    let fit := l.closed = true
      ∧ (∀ id ∈ l.bound, ∀ o, s.findOrder id = some o →
          o.state = .complete ∨ o.state = .cancelled ∨ o.state = .shortClosed)
      ∧ (∀ e ∈ l.expected, e.state = .arrived ∨ e.state = .late) ∧ l.foreign = 0
    (l.state = .filling → fit → s.judgeLane j = (s.onLane j (fun l => { l with state := .ready })).notify
      (.laneReady j l.chain l.bound.length (l.expected.filter (fun e => e.state = .arrived)).length
        (l.expected.filter (fun e => e.state = .late)).length))
    ∧ (l.state = .ready → ¬fit → s.judgeLane j = s.onLane j (fun l => { l with state := .filling }))
    ∧ ((l.state = .filling ∧ ¬fit) ∨ (l.state = .ready ∧ fit) ∨ l.state = .free ∨ l.state = .opening →
      s.judgeLane j = s))

/-- LANE-RELEASE (R114): its refusals; a READY lane's LANE-OPEN is queued and it is OPENING; a FILLING lane by force
closes its chain, short-closes each bound order that is not finished, in their order, and opens. (How an order is
closed, `State.closeOrder`, is in `OrdersAreClosed`. Readiness within a forced release is log entry 26.) -/
def Obligations.LanesAreReleased : Prop :=
  ∀ (s : State) (src j : Nat) (force : Bool), s.accepts →
    let c : Instr := .laneRelease src j force
    let l := s.lane j
    let opened (t : State) : State :=
      (t.queueField (.lane j) (.laneOpen j)).onLane j (fun l => { l with state := .opening })
    (23 < j → exec c s = .next (State.finish s (s.placeReply src 28 .badArgument [])))
    ∧ (j ≤ 23 → s.lanes.conveyor = none ∨ l.state = .free ∨ l.state = .opening ∨ (l.state = .filling ∧ force = false) →
      exec c s = .next (State.finish s (s.placeReply src 28 .refusedState [])))
    ∧ (j ≤ 23 → s.lanes.conveyor ≠ none → l.state = .ready →
      exec c s = .next (State.finish s ((opened s).placeReply src 28 .done [])))
    ∧ (j ≤ 23 → s.lanes.conveyor ≠ none → l.state = .filling → force = true →
      let unfinished (t : State) (id : Nat) := ∃ o, t.findOrder id = some o ∧ o.state ≠ .complete
        ∧ o.state ≠ .cancelled ∧ o.state ≠ .shortClosed
      ∃ (toClose : List Nat) (close : State → Nat → State),
        toClose.Sublist l.bound ∧ (∀ id, id ∈ toClose ↔ id ∈ l.bound ∧ unfinished s id)
        ∧ (∀ t id o, t.findOrder id = some o → unfinished t id → close t id = t.closeOrder o .shortClosed)
        ∧ (∀ t id, ¬unfinished t id → close t id = t)
        ∧ exec c s = .next (State.finish s
          ((opened (l.bound.foldl close ((s.onLane j (fun l => { l with closed := true })).judgeLane j))).placeReply
            src 28 .done (be1 toClose.length))))

/-! ## The audit's settings and the restarts (06, 09) -/

/-- RESTART-ALL from node 0 (R174) leaves every block at its power-on values, the transmission under way going on,
its reply in the reply queue and the STARTED notice, cause RESTART-ALL, as notice 1. (Log entry 24.) RESTART-OPS
from node 0 (R175) does every block's part in one event (R26, R50, R77, R100, R116, R134, R147, R169), keeps the
rest, the other handed events in their order among it, and gives three numbers in its reply and its notice. (The
handed events it drops are log entry 37, those it keeps, pick and substitution requests among them, log entry 65,
the widths of its numbers log entry 14, the order of several STOPs log entry 61, and notices-lost where its own
notice is lost log entry 63.) -/
def Obligations.RestartsEndTheWork : Prop :=
  (∀ s : State, s.accepts → exec (.restartAll 0) s = .next (State.finish s
    { pending := s.pending, address := s.address, serviceHigh := s.serviceHigh,
      ring := { transmitter := s.ring.transmitter, replies := [⟨0, 32, .done, []⟩],
                notices := [⟨1, .started s.address s.serviceHigh true⟩] },
      command := { noticeSequence := 1 } }))
  ∧ (∀ s : State, s.accepts →
    let reserved := (s.stock.slots.filter (fun e => match e.2.content with | .reserved _ _ _ => true | _ => false)).length
    let inbound := (s.stock.slots.filter (fun e => match e.2.content with | .inbound _ => true | _ => false)).length
    ∃ u : State, exec (.restartOps 0) s = .next (State.finish s
        ((u.notify (.restarted s.planner.orders.length reserved inbound)).placeReply 0 31 .done
          (be1 s.planner.orders.length ++ be2 reserved ++ be1 inbound)))
      ∧ (∀ i, u.slot i = match (s.slot i).content with
        | .reserved t _ _ => ⟨.stored t, (s.slot i).fresh⟩
        | .inbound _ => ⟨.empty, true⟩
        | .empty | .stored _ | .held _ | .blocked => s.slot i)
      ∧ u.stock.calendar = s.stock.calendar ∧ u.planner = ⟨[], s.planner.acceptances⟩
      ∧ u.handed = s.handed.filter (fun c => match c with
        | .planningStep _ _ | .replan _ _ _ | .release _ _ _ | .wakeUp _ => false
        | _ => true)
      ∧ (∀ k < 8, u.carousel k = { s.carousel k with
          state := (match (s.carousel k).state with
            | .moving | .interrupted | .curtainWait | .standing => .standing
            | .offline => .offline | .fault => .fault | .yielded => .yielded),
          move := none, stops := [], moveTimer := none, dwellTimer := none, sweepTimer := none })
      ∧ u.motion.creations = 0
      ∧ u.ring = { s.ring with
          counters := {},
          field := (((List.range 8).filter (fun k => (s.carousel k).state = .moving ∨ (s.carousel k).state = .interrupted)).foldl
            (fun t k => t.queueField (.drive k) .stop) s).ring.field }
      ∧ (∀ k < 8, u.port k = { s.port k with
          mode := (s.port k).pendingMode.getD (s.port k).mode, pendingMode := none, work := .idle,
          putaway := none, timer := none, underrunCount := 0, strayCount := 0, wrongTyreCount := 0,
          workSinceReport := true, display := {} })
      ∧ u.lanes = { s.lanes with lanes := [], waiting := [] }
      ∧ u.audit.log = s.audit.log ∧ u.audit.logCount = s.audit.logCount
      ∧ (∀ k < 8, ((s.auditRecord k).mode ≠ .zoneCycle →
            u.auditRecord k = { s.auditRecord k with streaks := [], counts := [], reports := 0 })
          ∧ ((s.auditRecord k).mode = .zoneCycle → u.auditRecord k = { s.auditRecord k with
              streaks := [], counts := [], reports := 0, cursor := (s.activeZones k).head? }))
      ∧ u.command = { s.command with intakeOverruns := 0, noticesLost := 0 } ∧ u.policy = s.policy
      ∧ u.pending = s.pending ∧ u.now = s.now ∧ u.address = s.address ∧ u.serviceHigh = s.serviceHigh
      ∧ u.resetHeld = s.resetHeld)

/-! ## Reports of the drive and the curtain (03) -/

/-- POSITION (R62, R63): below N, the carrier at port takes it in every state, a MOVING carousel noting it and
taking a sample from the third of a move on; at N or more a carousel in service enters FAULT, a MOVING one with its
sample taken all the same, and any other ignores it. CARRIER-LEFT reaches a port whose carrier leaves. (A carrier
leaves where the carrier at port changes to one the port does not serve: log entry 38. The count of POSITIONs is
kept to 2, log entry 44.) -/
def Obligations.PositionsAreTaken : Prop :=
  (∀ (s : State) (k : CarouselNo) (c : Nat), s.serving = true →
    let e : Instr := .position k c
    let x := s.carousel k
    let running := x.state = .standing ∨ x.state = .moving ∨ x.state = .interrupted ∨ x.state = .curtainWait
    let noted := (s.take e).onCarousel k (fun x => if x.state = .moving then { x with
      estimate :=
        if 2 ≤ x.positionsSeen then (7 * x.estimate + max 50 (min (s.now - x.lastPositionAt) 10000) + 4) / 8
        else x.estimate,
      positionsSeen := min 2 (x.positionsSeen + 1), lastPositionAt := s.now } else x)
    (x.carriers ≤ c → running → exec e s = .next (State.finish s (noted.enterFault k .positionMismatch)))
    ∧ (x.carriers ≤ c → ¬running → exec e s = .next (State.finish s (s.take e)))
    ∧ (c < x.carriers → exec e s = .next (State.finish s (noted.setAtPort k c))))
  ∧ (∀ (s : State) (k c : Nat),
    let placed := s.onCarousel k (fun x => { x with atPort := c })
    let serves (y : Nat) := (∃ p, (s.port k).work = .presenting p ∧ p.carrier = y) ∨ (s.port k).work = .placing y
    (∀ y, serves y → (s.carousel k).atPort ≠ c → c ≠ y → s.setAtPort k c = placed.carrierLeft k)
    ∧ ((∀ y, serves y → (s.carousel k).atPort = c ∨ c = y) → s.setAtPort k c = placed))

/-- ARRIVED (R65, R62): at the target of a MOVING carousel's move, the move completes and its owner is told; at
another carrier below N the carousel enters FAULT with that carrier at port; elsewhere it is as POSITION, without a
sample. A completed move leaves the carousel STANDING with no move; its owner is told first, and a port that was not
CALLING is then told of STANDING, in one event: that order is the model's reading (log entry 18). (When a carrier
has left is log entry 38.) -/
def Obligations.ArrivalsCompleteMoves : Prop :=
  (∀ (s : State) (k : CarouselNo) (c : Nat), s.serving = true →
    let e : Instr := .arrived k c
    let x := s.carousel k
    let stopped := x.state = .standing ∨ x.state = .interrupted ∨ x.state = .curtainWait
    let t := (s.take e).setAtPort k c
    (x.carriers ≤ c → stopped ∨ x.state = .moving →
      exec e s = .next (State.finish s ((s.take e).enterFault k .positionMismatch)))
    ∧ (x.carriers ≤ c → ¬(stopped ∨ x.state = .moving) → exec e s = .next (State.finish s (s.take e)))
    ∧ (c < x.carriers → x.state ≠ .moving ∨ x.move = none → exec e s = .next (State.finish s t))
    ∧ (∀ m, c < x.carriers → x.state = .moving → x.move = some m → m.target ≠ c →
      exec e s = .next (State.finish s (t.enterFault k .positionMismatch)))
    ∧ (∀ m, c < x.carriers → x.state = .moving → x.move = some m → m.target = c →
      exec e s = .next (State.finish s (t.completeMove k m))))
  ∧ (∀ (s : State) (k : Nat) (m : Move),
    let done := s.onCarousel k (fun x => { x with moveTimer := none, move := none, state := .standing })
    let told : State := match m.purpose with
      | .jog => done
      | .sweep => (if (done.auditRecord k).reports = 0 then done.notify (.gateSilent k (done.carousel k).gate)
          else done).onAudit k (fun a => { a with reports := 0 })
      | .storeCall => done.arrivalAt k m.target none
      | .call => (done.onCarousel k (fun x => { x with
          stops := x.stops.filter (fun y => y.carrier ≠ m.target) })).arrivalAt k m.target
            ((done.carousel k).stops.find? (fun y => y.carrier = m.target))
    ((s.port k).work = .calling → s.completeMove k m = told)
    ∧ ((s.port k).work ≠ .calling → s.completeMove k m = told.autoCall k))

/-- The four fault causes and the two ways to yield (R64, R68 to R70, R72): DRIVE-STATUS, a returned motion
telegram, the move timer's expiry and an observed foreign telegram. A FAULT that is entered queues its STOP and
tells the port of a call cut off; a further cause replaces the cause; yielding withdraws the drive's waiting
telegram. (An expiry of a stopped move timer changes nothing, and one of a running timer happens whatever time is
left: log entry 5.) -/
def Obligations.FaultsAndYields : Prop :=
  (∀ (s : State) (k : CarouselNo), s.serving = true →
    (∀ commander fault,
      let e : Instr := .driveStatus k commander fault
      let t := (s.take e).onCarousel k (fun x => { x with
        lastCommander := commander, lastFault := fault, statusSinceFault := true })
      (∀ n, commander = some n → n ≠ s.address → exec e s = .next (State.finish s (t.yieldTo k n)))
      ∧ ((commander = none ∨ commander = some s.address) → fault ≠ none →
        exec e s = .next (State.finish s (t.faultReaches k .driveFault)))
      ∧ ((commander = none ∨ commander = some s.address) → fault = none →
        exec e s = .next (State.finish s t)))
    ∧ (∀ n, exec (.foreignMotionTelegram k n) s =
      .next (State.finish s ((s.take (.foreignMotionTelegram k n)).yieldTo k n)))
    ∧ exec (.returnedMotionTelegram k) s =
      .next (State.finish s ((s.take (.returnedMotionTelegram k)).faultReaches k .driveAbsent))
    ∧ ((s.carousel k).moveTimer = none →
      exec (.moveTimerExpiry k) s = .next (State.finish s (s.take (.moveTimerExpiry k))))
    ∧ (∀ n, (s.carousel k).moveTimer = some n → exec (.moveTimerExpiry k) s = .next (State.finish s
      (((s.take (.moveTimerExpiry k)).onCarousel k (fun x => { x with moveTimer := none })).faultReaches k
        .moveTimeout))))
  ∧ (∀ (s : State) (k : Nat),
    let x := s.carousel k
    let running := x.state = .standing ∨ x.state = .moving ∨ x.state = .interrupted ∨ x.state = .curtainWait
    let called := ∃ m, x.move = some m ∧ (m.purpose = .call ∨ m.purpose = .storeCall)
    (∀ cause,
      let stopped := (s.onCarousel k (fun x => { x with
        state := .fault, cause := some cause, move := none, statusSinceFault := false, moveTimer := none,
        dwellTimer := none, sweepTimer := none })).queueField (.drive k) .stop
      let notice : Notice := .carouselFault k cause x.atPort (x.move.map (fun m => (m.purpose, m.target)))
      ((called → s.enterFault k cause = (stopped.callFailed k).notify notice)
      ∧ (¬called → s.enterFault k cause = stopped.notify notice))
      ∧ (running → s.faultReaches k cause = s.enterFault k cause)
      ∧ (x.state = .fault → s.faultReaches k cause = (s.onCarousel k (fun x => { x with
          cause := some cause,
          statusSinceFault := x.statusSinceFault && decide (cause ≠ .driveAbsent) })).notify
            (.carouselFault k cause x.atPort none))
      ∧ (x.state = .offline ∨ x.state = .yielded → s.faultReaches k cause = s))
    ∧ (∀ n,
      let yielded := (s.onCarousel k (fun x => { x with
        state := .yielded, cause := none, move := none, moveTimer := none, dwellTimer := none,
        sweepTimer := none })).withdrawField (.drive k)
      (running ∨ x.state = .fault → called →
        s.yieldTo k n = (yielded.callFailed k).notify (.carouselYielded k n))
      ∧ (running ∨ x.state = .fault → ¬called → s.yieldTo k n = yielded.notify (.carouselYielded k n))
      ∧ (x.state = .offline ∨ x.state = .yielded → s.yieldTo k n = s)))

/-- CURTAIN (R66) and the resume dwell's expiry (R67): a change stops a MOVING carousel, stops or starts the dwell;
the expiry completes the move where no step remains, else starts it again with the travel that remains. Move
requests (R61, R64) and the idle-sweep timer's expiry (R74), which requests a full turn: from STANDING a MOVE is
queued and timed, or behind a BROKEN curtain the move waits; a sweep under way is superseded; any other move under
way, and a carousel out of service, is left alone. (An expiry of a stopped dwell or idle-sweep timer changes
nothing, and one of a running timer happens whatever time is left: log entry 5.) -/
def Obligations.CurtainStopsAndRequestsStartMoves : Prop :=
  (∀ (s : State) (k : CarouselNo), s.serving = true →
    let x := s.carousel k
    (∀ b,
      let e : Instr := .curtain k b
      let t := (s.take e).onCarousel k (fun x => { x with curtainBroken := b })
      (x.curtainBroken = b → exec e s = .next (State.finish s (s.take e)))
      ∧ (x.curtainBroken ≠ b →
        (x.state = .moving → b = true → exec e s = .next (State.finish s
          ((t.queueField (.drive k) .stop).onCarousel k (fun x => { x with
            state := .interrupted, moveTimer := none }))))
        ∧ (x.state = .interrupted ∨ x.state = .curtainWait → exec e s = .next (State.finish s
          (t.onCarousel k (fun x => { x with dwellTimer := if b then none else some x.dwell }))))
        ∧ (x.state = .standing ∨ x.state = .offline ∨ x.state = .fault ∨ x.state = .yielded
            ∨ (x.state = .moving ∧ b = false) → exec e s = .next (State.finish s t))))
    ∧ (let e : Instr := .resumeDwellExpiry k
      let t := (s.take e).onCarousel k (fun x => { x with dwellTimer := none })
      (x.dwellTimer = none → exec e s = .next (State.finish s (s.take e)))
      ∧ (x.dwellTimer ≠ none → x.move = none ∨ (x.state ≠ .interrupted ∧ x.state ≠ .curtainWait) →
        exec e s = .next (State.finish s t))
      ∧ (∀ m, x.dwellTimer ≠ none → x.move = some m → x.state = .interrupted ∨ x.state = .curtainWait →
        let df := (m.target + (x.carriers - x.atPort % x.carriers)) % x.carriers
        let db := (x.carriers - df) % x.carriers
        let taken : Direction := match m.leg with | some l => l.direction | none => .forward
        let leg : Leg := match m.purpose with
          | .call | .storeCall => if x.bidirectional = true ∧ db < df then ⟨.backward, db⟩ else ⟨.forward, df⟩
          | .sweep => ⟨.forward, if df = 0 then x.carriers else df⟩
          | .jog => ⟨taken, if taken = .forward then df else db⟩
        (leg.steps = 0 → exec e s = .next (State.finish s (t.completeMove k m)))
        ∧ (leg.steps ≠ 0 → exec e s = .next (State.finish s
          ((t.onCarousel k (fun x => { x with
            state := .moving, move := some ⟨m.purpose, m.target, some leg⟩,
            moveTimer := some (min 600000
              (leg.steps * (if x.overrideOn then x.overrideValue else x.estimate) * 3 / 2 + 2000)),
            positionsSeen := 0, lastPositionAt := 0 })).queueField (.drive k)
              (if m.purpose = .jog then .jog leg else .move m.target leg)))))))
  ∧ ((∀ (s : State) (k : CarouselNo), s.serving = true →
    let e : Instr := .idleSweepExpiry k
    let x := s.carousel k
    (x.sweepTimer = none → exec e s = .next (State.finish s (s.take e)))
    ∧ (x.sweepTimer ≠ none → exec e s = .next (State.finish s
      (((s.take e).onCarousel k (fun x => { x with sweepTimer := none })).moveRequest k .sweep x.atPort
        ⟨.forward, x.carriers⟩))))
  ∧ (∀ (s : State) (k : Nat) (p : Purpose) (target : Nat) (leg : Leg),
    let x := s.carousel k
    let sweeps := ∃ m, x.move = some m ∧ m.purpose = .sweep
    let started := (s.onCarousel k (fun x => { x with
        state := .moving, move := some ⟨p, target, some leg⟩,
        moveTimer := some (min 600000
          (leg.steps * (if x.overrideOn then x.overrideValue else x.estimate) * 3 / 2 + 2000)),
        positionsSeen := 0, lastPositionAt := 0 })).queueField (.drive k)
          (if p = .jog then .jog leg else .move target leg)
    let waits := s.onCarousel k (fun x => { x with move := some ⟨p, target, none⟩ })
    (x.state = .standing → x.curtainBroken = false → s.moveRequest k p target leg = started)
    ∧ (x.state = .standing → x.curtainBroken = true →
      s.moveRequest k p target leg = waits.onCarousel k (fun x => { x with state := .curtainWait }))
    ∧ (x.state = .moving → sweeps → s.moveRequest k p target leg = started)
    ∧ (x.state = .interrupted ∨ x.state = .curtainWait → sweeps → s.moveRequest k p target leg = waits)
    ∧ ((x.state = .moving ∨ x.state = .interrupted ∨ x.state = .curtainWait) ∧ ¬sweeps
        ∨ x.state = .offline ∨ x.state = .fault ∨ x.state = .yielded → s.moveRequest k p target leg = s)))

/-! ## Calls, presentations and put-aways (03, 04, 01) -/

/-- READY (R82) and the call it makes (R60, R83, R84): only an IDLE port in PICK mode calls; a carousel out of
service or under another move leaves it as it is; an empty list is an underrun; else every stop not chosen gains a
bypass, and the chosen one is presented, or called. The travel to a carrier (R59) and the choice of a stop (R60):
the earliest stop bypassed up to the limit, else the nearest, FORWARD before BACKWARD, then the earliest. The call
that auto-call makes is the same call, where auto-call is on. (The indicators a presentation shows are in
`EndOfEventQueuesDisplaysAndKeepsTheRest`.) -/
def Obligations.CallsAreMadeForTheChosenStop : Prop :=
  (((∀ (s : State) (k : CarouselNo), s.serving = true →
    exec (.ready k) s = .next (State.finish s ((s.take (.ready k)).makeCall k)))
  ∧ (∀ (s : State) (k : Nat),
    let x := s.carousel k
    let p := s.port k
    let wants := p.work = .idle ∧ p.mode = .pick
    let sweeps := ∃ m, x.move = some m ∧ m.purpose = .sweep
    let free := x.state = .standing
      ∨ ((x.state = .moving ∨ x.state = .interrupted ∨ x.state = .curtainWait) ∧ sweeps)
    (¬wants → s.makeCall k = s)
    ∧ (wants → ¬free → s.makeCall k = s)
    ∧ (wants → free → x.stops = [] →
      let counted := s.onPort k (fun p => { p with
        underrunCount := min 65535 (p.underrunCount + 1),
        workSinceReport := if p.underrunReport = .every then p.workSinceReport else false })
      let dark (m : Message) := counted.onPort k (fun p => { p with
        display := ⟨[.dark, .dark, .dark, .dark, .dark, .dark, .dark, .dark], m⟩ })
      let shown := if p.underrunDisplay = .idlePattern then dark .idlePattern
        else if p.underrunDisplay = .dark then dark .none else counted
      (p.underrunReport = .every ∨ p.workSinceReport = true →
        s.makeCall k = shown.notify (.portUnderrun k (min 65535 (p.underrunCount + 1))))
      ∧ (p.underrunReport ≠ .every → p.workSinceReport = false → s.makeCall k = shown))
    ∧ (∀ y, wants → free → x.chooseStop = some y →
      let passed := s.onCarousel k (fun x => { x with stops := x.stops.map (fun z =>
        if z.carrier = y.carrier then z else { z with bypass := min 15 (z.bypass + 1) }) })
      (x.state = .standing → y.carrier = x.atPort → s.makeCall k =
        (passed.onCarousel k (fun x => { x with
          stops := x.stops.filter (fun z => z.carrier ≠ y.carrier) })).startPresentation k y)
      ∧ (x.state ≠ .standing ∨ y.carrier ≠ x.atPort → s.makeCall k =
        (passed.moveRequest k .call y.carrier (x.travel y.carrier)).onPort k (fun p => { p with
          work := .calling }))))
  ∧ (∀ (s : State) (k : Nat) (y : Stop), s.startPresentation k y =
      (s.onPort k (fun p => { p with
        work := .presenting ⟨y.carrier, y.tasks, y.creation, y.bypass, []⟩, workSinceReport := true,
        timer := some (p.timeout * 1000), display := { p.display with message := .none } })).rebuild k))
  ∧ (∀ x : Carousel,
    let df (c : Nat) := (c + (x.carriers - x.atPort % x.carriers)) % x.carriers
    let db (c : Nat) := (x.carriers - df c) % x.carriers
    let due (z : Stop) := 0 < x.bypassLimit ∧ x.bypassLimit ≤ z.bypass
    let before (y z : Stop) := (x.travel y.carrier).steps < (x.travel z.carrier).steps
      ∨ ((x.travel y.carrier).steps = (x.travel z.carrier).steps ∧ (x.travel y.carrier).direction = .forward
        ∧ (x.travel z.carrier).direction = .backward)
    (∀ c, (x.bidirectional = true → db c < df c → x.travel c = ⟨.backward, db c⟩)
      ∧ (x.bidirectional = false ∨ df c ≤ db c → x.travel c = ⟨.forward, df c⟩))
    ∧ (x.stops = [] → x.chooseStop = none)
    ∧ (∀ earlier y later, x.stops = earlier ++ y :: later →
      (due y → (∀ z ∈ earlier, ¬due z) → x.chooseStop = some y)
      ∧ ((∀ z ∈ x.stops, ¬due z) → (∀ z ∈ earlier, before y z) → (∀ z ∈ later, ¬before z y) →
        x.chooseStop = some y))))
  ∧ (∀ (s : State) (k : Nat), s.autoCall k = if (s.port k).autoCall = true then s.makeCall k else s)

/-- SKIP (R93), the presentation timer's expiry (R93, R97), a returned DISPLAY (R87), and what the Motion Unit tells
a port: CARRIER-LEFT (R94, R97), CALL-FAILED and ARRIVAL (R83, R96). The remaining tasks go back as a stop, a
pending put-away is withdrawn with its notice, and the port returns to IDLE, or is CLOSED as absent. (The order of a
notice and the return, and when a carrier has left, are log entry 38; the fields of PUTAWAY-ENDED log entry 13; an
expiry of a stopped presentation timer changes nothing, and one of a running timer happens whatever time is left,
log entry 5.) -/
def Obligations.PresentationsEnd : Prop :=
  (∀ (s : State) (k : CarouselNo), s.serving = true →
    let p := s.port k
    (let e : Instr := .skip k;
      ((∀ x, p.work ≠ .presenting x) → exec e s = .next (State.finish s (s.take e)))
      ∧ (∀ x, p.work = .presenting x → exec e s = .next (State.finish s
        (((s.take e).breakPresentation k x (x.bypass + 1) .none).toIdle k))))
    ∧ (let e : Instr := .presentationTimerExpiry k;
      (p.timer = none ∨ p.work = .idle ∨ p.work = .calling → exec e s = .next (State.finish s (s.take e)))
      ∧ (∀ x, p.timer ≠ none → p.work = .presenting x → exec e s = .next (State.finish s
        ((((s.take e).breakPresentation k x (x.bypass + 1) .none).notify
          (.presentationTimeout k x.carrier x.tasks.length x.creation)).toIdle k)))
      ∧ (∀ c, p.timer ≠ none → p.work = .placing c → exec e s = .next (State.finish s
        ((((s.take e).abandonPutaway k .timeout).darken k .none).toIdle k))))
    ∧ (let e : Instr := .returnedDisplay k;
      (p.absent = true → exec e s = .next (State.finish s (s.take e)))
      ∧ (p.absent = false →
        let gone := (s.take e).onPort k (fun p => { p with absent := true })
        let closed (t : State) := ((t.onPort k (fun p => { p with
            timer := none, work := .idle, mode := .closed, pendingMode := none })).darken k .none).notify
              (.portAbsent k (s.carousel k).port)
        (p.work = .idle → exec e s = .next (State.finish s (closed gone)))
        ∧ (p.work = .calling ∨ (∃ c, p.work = .placing c) →
          exec e s = .next (State.finish s (closed (gone.abandonPutaway k .absent))))
        ∧ (∀ x, p.work = .presenting x → exec e s = .next (State.finish s
          (closed (gone.returnStop k ⟨x.carrier, x.tasks, x.creation, x.bypass⟩)))))))
  ∧ (∀ (s : State) (k : Nat),
    let p := s.port k
    (∀ x b m, s.breakPresentation k x b m =
      ((s.returnStop k ⟨x.carrier, x.tasks, x.creation, b⟩).onPort k (fun p => { p with timer := none })).onPort k
        (fun p => { p with display := ⟨[.dark, .dark, .dark, .dark, .dark, .dark, .dark, .dark], m⟩ }))
    ∧ (∀ cause, p.putaway = none → s.abandonPutaway k cause = s)
    ∧ (∀ cause a, p.putaway = some a →
      let ended (t : State) := (t.onPort k (fun p => { p with putaway := none, timer := none })).notify
        (.putawayEnded k a.tyre.tag a.tyre.article (a.tyre.ordinal % 53 + 1) (a.tyre.ordinal / 53) (some a.slot)
          cause none)
      ((∃ t, (s.slot a.slot).content = .inbound t) →
        s.abandonPutaway k cause = ended (s.writeSlot a.slot ⟨.empty, true⟩))
      ∧ ((∀ t, (s.slot a.slot).content ≠ .inbound t) → s.abandonPutaway k cause = ended s))
    ∧ (∀ x, p.work = .presenting x →
      s.carrierLeft k = (s.breakPresentation k x x.bypass .moveInProgress).toIdle k)
    ∧ (∀ c, p.work = .placing c →
      s.carrierLeft k = ((s.abandonPutaway k .carrierLeft).darken k .moveInProgress).toIdle k)
    ∧ (p.work = .calling → s.callFailed k = (s.abandonPutaway k .callFailed).toIdle k)
    ∧ (p.work ≠ .calling → s.callFailed k = s)
    ∧ (∀ c y,
      (p.work = .calling → p.mode = .pick → s.arrivalAt k c (some y) = s.startPresentation k y)
      ∧ (p.work = .calling → p.mode = .pick → s.arrivalAt k c none = s.toIdle k)
      ∧ (∀ a z, p.work = .calling → p.mode = .store → p.putaway = some a →
        (slotCarrier a.slot = c → s.arrivalAt k c z = s.startPlacing k c)
        ∧ (slotCarrier a.slot ≠ c → s.arrivalAt k c z = s.storeCall k))
      ∧ (p.work ≠ .calling → s.arrivalAt k c none = s ∧ s.arrivalAt k c (some y) = s.returnStop k y)))

/-- The return to IDLE (R81): the pending mode takes effect, darkening the display where it changes the mode, then
an auto-call. A stop handed back (R58) stands before the first that is not earlier, joined with one for its carrier;
a list that was empty may make the port call. (That the call is made as the stop joins, within the event, is log
entry 19; the sequence kept where the two are 32,768 apart is log entry 62.) -/
def Obligations.PortsReturnToIdle : Prop :=
  (∀ (s : State) (k : Nat),
    let p := s.port k
    let called (t : State) := if (t.port k).autoCall = true then t.makeCall k else t
    (p.pendingMode = none → s.toIdle k = called (s.onPort k (fun p => { p with work := .idle })))
    ∧ (∀ m, p.pendingMode = some m →
      let t := s.onPort k (fun p => { p with work := .idle, mode := m, pendingMode := none })
      (m = p.mode → s.toIdle k = called t)
      ∧ (m ≠ p.mode → s.toIdle k = called (t.onPort k (fun p => { p with
        display := ⟨[.dark, .dark, .dark, .dark, .dark, .dark, .dark, .dark], .none⟩ })))))
  ∧ (∀ (s : State) (k : Nat) (y : Stop),
    let x := s.carousel k
    let others := x.stops.filter (fun z => z.carrier ≠ y.carrier)
    let put (b : Stop) := s.onCarousel k (fun x => { x with stops := insertStop b others })
    (y.tasks = [] → s.returnStop k y = s)
    ∧ (y.tasks ≠ [] →
      (x.stops = [] → s.returnStop k y = (put { y with bypass := min 15 y.bypass }).autoCall k)
      ∧ (x.stops ≠ [] → (∀ z ∈ x.stops, z.carrier ≠ y.carrier) →
        s.returnStop k y = put { y with bypass := min 15 y.bypass })
      ∧ (∀ z, x.stops.find? (fun z => z.carrier = y.carrier) = some z → s.returnStop k y = put
        ⟨y.carrier, y.tasks.foldl (fun ts t => addTask t ts) z.tasks,
          if earlier y.creation z.creation = true then y.creation else z.creation,
          max (min 15 y.bypass) z.bypass⟩)))
  ∧ (∀ (b : Stop) (stops : List Stop),
    (∀ first y rest, stops = first ++ y :: rest → (∀ z ∈ first, earlier z.creation b.creation = true) →
      earlier y.creation b.creation = false → insertStop b stops = first ++ b :: y :: rest)
    ∧ ((∀ z ∈ stops, earlier z.creation b.creation = true) → insertStop b stops = stops ++ [b]))
  ∧ (∀ a b, a ≤ 65535 → b ≤ 65535 →
    (earlier a b = true ↔ 1 ≤ (b + 65536 - a) % 65536 ∧ (b + 65536 - a) % 65536 ≤ 32767))

/-- SCAN (R89, R91, R95, R99): counted stray, with WAIT shown or not, where there is no work for it; at a
presentation a pick request, a substitution request or a refusal; at an IDLE port in STORE mode a put-away, with its
slot's store call, or its refusal's message and notice. (The fields of PUTAWAY-ENDED are log entry 13.) -/
def Obligations.ScansAreTaken : Prop :=
  ∀ (s : State) (k : CarouselNo) (tag a w y : Nat), s.serving = true →
    let e : Instr := .scan k tag a w y
    let p := s.port k
    let u := s.take e
    let stray := u.onPort k (fun p => { p with strayCount := min 65535 (p.strayCount + 1) })
    let wrong := (u.onPort k (fun p => { p with
      wrongTyreCount := min 65535 (p.wrongTyreCount + 1) })).setMessage k .wrongTyre
    (tag = 0 → exec e s = .next (State.finish s stray))
    ∧ (tag ≠ 0 → (∀ x, p.work ≠ .presenting x) → p.mode = .closed → exec e s = .next (State.finish s stray))
    ∧ (tag ≠ 0 → (∀ x, p.work ≠ .presenting x) → p.mode = .pick ∨ (p.mode = .store ∧ p.work ≠ .idle) →
      exec e s = .next (State.finish s (stray.setMessage k .wait)))
    ∧ (tag ≠ 0 → p.work = .idle → p.mode = .store →
      (∀ i n t, u.putawayChoice k tag a w y = (t, .chosen i n) → exec e s = .next (State.finish s
        ((t.onPort k (fun p => { p with putaway := some ⟨⟨tag, a, n⟩, i⟩ })).storeCall k)))
      ∧ (∀ o t, u.putawayChoice k tag a w y = (t, .refused o) → exec e s = .next (State.finish s
        ((t.setMessage k (match o with
          | .badDate | .unknownArticle | .dateAhead => .wrongTyre
          | .duplicateTag => .duplicateTag
          | .noSpace | .storeFull => .storeFull)).notify (.putawayEnded k tag a w y none .refused (some o))))))
    ∧ (∀ x, tag ≠ 0 → p.work = .presenting x →
      let here (i : Nat) := s.tagSlot tag = some i ∧ i / 768 = k ∧ i % 768 / 8 = x.carrier
      let tasked (i : Nat) (t : PickTask) := x.tasks.find? (fun t => t.position = i % 8) = some t
      let giveable (article : Nat) := ∃ r, s.article article = some r ∧ (s.profile r.profile).substitute = true
      let ofArticle (article : Nat) (t : PickTask) := ∃ l, s.findLine t.order t.line = some l ∧ l.article = article
      ((∀ i, ¬here i) → exec e s = .next (State.finish s wrong))
      ∧ (∀ i t, here i → tasked i t →
        exec e s = .next (State.finish s (u.hand [.pickRequest k tag t.order t.line])))
      ∧ (∀ i, here i → (∀ t, ¬tasked i t) → (∀ t, (s.slot i).content ≠ .stored t) →
        exec e s = .next (State.finish s wrong))
      ∧ (∀ i t, here i → (∀ t, ¬tasked i t) → (s.slot i).content = .stored t →
        (¬giveable t.article ∨ (∀ r ∈ x.tasks, ¬ofArticle t.article r) →
          exec e s = .next (State.finish s wrong))
        ∧ (∀ before r after, giveable t.article → x.tasks = before ++ r :: after →
          (∀ z ∈ before, ¬ofArticle t.article z) → ofArticle t.article r →
          exec e s = .next (State.finish s
            (u.hand [.substitutionRequest k i (k * 768 + x.carrier * 8 + r.position)])))))

/-- The put-away choice (R11, R12) and the store call (R96): the checks in their order; a slot chosen is one that is
open, of least travel, FORWARD first, then lowest, and under GROUPED on a carrier that holds the article where one
is open; it becomes INBOUND. The store call starts the placement, calls the carrier, or gives up. (The tag's search
and the demand are in `SlotRecordsAreLoaded`, the indicators in `EndOfEventQueuesDisplaysAndKeepsTheRest`.) -/
def Obligations.PutawayIsChosenAndCalled : Prop :=
  (∀ (s : State) (k tag article w y : Nat),
    let p := y * 53 + (w - 1)
    let dated := 1 ≤ w ∧ w ≤ 53 ∧ y ≤ 99
    let r := s.choosePutaway k tag article w y
    (¬dated → r = .refused .badDate)
    ∧ (dated → s.article article = none → r = .refused .unknownArticle)
    ∧ (∀ a, dated → s.article article = some a →
      let ahead := s.stock.calendar.isSet = true ∧ 4240 < (s.stock.calendar.ordinal + (5300 - p % 5300)) % 5300
      let refused := ahead ∧ (s.profile a.profile).refuseAhead = true
      (s.tagSlot tag ≠ none → r = .refused .duplicateTag)
      ∧ (s.tagSlot tag = none → refused → r = .refused .dateAhead)
      ∧ (s.tagSlot tag = none → ¬refused → s.demandAllows article = false → r = .refused .noSpace)
      ∧ (s.tagSlot tag = none → ¬refused → s.demandAllows article = true →
        let x := s.carousel k
        let isOpen (i : Nat) := i / 768 = k ∧ i % 768 / 8 < x.carriers ∧ i % 8 < x.positions
          ∧ (s.slot i).content = .empty ∧ a.zones.getLsbD (x.zone (i % 768 / 8)) = true
        let grouped (i : Nat) := ∃ j, j / 8 = i / 8 ∧ ∃ g, (s.slot j).content.goods = some g ∧ g.article = article
        let legRank (i : Nat) := 2 * (x.travel (i % 768 / 8)).steps
          + (if (x.travel (i % 768 / 8)).direction = .backward then 1 else 0)
        let best (fits : Nat → Prop) (i : Nat) := fits i ∧ ∀ j, fits j → legRank i < legRank j
          ∨ (legRank i = legRank j ∧ i ≤ j)
        x.carriers ≤ 96 → x.positions ≤ 8 →
        ((∀ i, ¬isOpen i) → r = .refused .storeFull)
        ∧ (∀ i, (s.profile a.profile).strategy = .nearest → best isOpen i → r = .chosen i p)
        ∧ (∀ i, (s.profile a.profile).strategy = .grouped → best (fun j => isOpen j ∧ grouped j) i →
          r = .chosen i p)
        ∧ (∀ i, (s.profile a.profile).strategy = .grouped → (∀ j, isOpen j → ¬grouped j) → best isOpen i →
          r = .chosen i p))
      ∧ (∀ o, r = .refused o → s.putawayChoice k tag article w y = (s, .refused o))
      ∧ (∀ i n, r = .chosen i n → ahead →
        s.putawayChoice k tag article w y = ((s.writeSlot i ⟨.inbound ⟨tag, article, n⟩, true⟩).notify
          (.dateAhead k i tag article w y), .chosen i n))
      ∧ (∀ i n, r = .chosen i n → ¬ahead →
        s.putawayChoice k tag article w y = (s.writeSlot i ⟨.inbound ⟨tag, article, n⟩, true⟩, .chosen i n))))
  ∧ (∀ (s : State) (k : Nat) (a : Putaway), (s.port k).putaway = some a →
    let x := s.carousel k
    let c := a.slot % 768 / 8
    let sweeps := ∃ m, x.move = some m ∧ m.purpose = .sweep
    let free := x.state = .standing
      ∨ ((x.state = .moving ∨ x.state = .interrupted ∨ x.state = .curtainWait) ∧ sweeps)
    (x.state = .standing → c = x.atPort → s.storeCall k = s.startPlacing k c)
    ∧ (free → x.state ≠ .standing ∨ c ≠ x.atPort → s.storeCall k =
      (s.moveRequest k .storeCall c (x.travel c)).onPort k (fun p => { p with work := .calling }))
    ∧ (¬free →
      let failed (t : State) := (((t.onPort k (fun p => { p with putaway := none, timer := none })).setMessage k
        .wait).notify (.putawayEnded k a.tyre.tag a.tyre.article (a.tyre.ordinal % 53 + 1) (a.tyre.ordinal / 53)
          (some a.slot) .unavailable none)).toIdle k
      ((∃ t, (s.slot a.slot).content = .inbound t) →
        s.storeCall k = failed (s.writeSlot a.slot ⟨.empty, true⟩))
      ∧ ((∀ t, (s.slot a.slot).content ≠ .inbound t) → s.storeCall k = failed s))
    ∧ s.startPlacing k c = (s.onPort k (fun p => { p with
        work := .placing c, timer := some (p.timeout * 1000),
        display := { p.display with message := .none } })).rebuild k)

/-- PLACED (R97, R13, R14) and the notices that a pending put-away ended (R98): the tyre is STORED where it was
placed, a slot that is not EMPTY there becomes a CONFLICT hold; a withdrawn slot is chosen afresh; a tyre found
elsewhere ends the put-away. (The fields of PUTAWAY-ENDED are log entry 13; the indicators are in
`EndOfEventQueuesDisplaysAndKeepsTheRest`.) -/
def Obligations.PlacementsComplete : Prop :=
  (∀ (s : State) (k : CarouselNo) (x : Nat), s.serving = true →
    let e : Instr := .placed k x
    let u := s.take e
    let p := s.port k
    let done (t : State) :=
      (t.onPort k (fun p => { p with putaway := none, timer := none })).toIdle k
    let counted := u.onPort k (fun p => { p with strayCount := min 65535 (p.strayCount + 1) })
    ((∀ c, p.work ≠ .placing c) ∨ (s.carousel k).positions ≤ x → exec e s = .next (State.finish s counted))
    ∧ (∀ c a, p.work = .placing c → x < (s.carousel k).positions → p.putaway = some a →
      let spot := k * 768 + c * 8 + x
      ((∀ t, (s.slot a.slot).content ≠ .inbound t) → exec e s = .next (State.finish s u))
      ∧ (∀ t, (s.slot a.slot).content = .inbound t →
        (spot = a.slot → exec e s = .next (State.finish s
          (done ((u.writeSlot spot ⟨.stored t, true⟩).hand [.wakeUp t.article]))))
        ∧ (spot ≠ a.slot → (s.slot spot).content = .empty → exec e s = .next (State.finish s
          (done (((u.writeSlot spot ⟨.stored t, true⟩).writeSlot a.slot ⟨.empty, true⟩).hand
            [.wakeUp t.article]))))
        ∧ (spot ≠ a.slot → (s.slot spot).content ≠ .empty → exec e s = .next (State.finish s
          (done ((((u.cancelReservation spot).logFinding spot .displaced (s.slot spot).content.tag (some t.tag)
            none).writeSlot spot ⟨.held (.conflict t), true⟩).writeSlot a.slot ⟨.empty, true⟩)))))))
  ∧ (∀ (s : State) (k : CarouselNo) (i : Nat), s.serving = true →
    let e : Instr := .putawayWithdrawn k i
    let u := s.take e
    let p := s.port k
    ((∀ a, p.putaway = some a → a.slot ≠ i) → exec e s = .next (State.finish s u))
    ∧ (∀ a, p.putaway = some a → a.slot = i →
      let asked := u.putawayChoice k a.tyre.tag a.tyre.article (a.tyre.ordinal % 53 + 1) (a.tyre.ordinal / 53)
      (∀ j n t, asked = (t, .chosen j n) →
        let moved := t.onPort k (fun p => { p with putaway := some ⟨a.tyre, j⟩ })
        (p.work = .calling → exec e s = .next (State.finish s moved))
        ∧ (∀ c, p.work = .placing c → j % 768 / 8 = c →
          exec e s = .next (State.finish s (moved.rebuild k)))
        ∧ (∀ c, p.work = .placing c → j % 768 / 8 ≠ c → exec e s = .next (State.finish s
          ((moved.onPort k (fun p => { p with work := .idle, timer := none })).storeCall k))))
      ∧ (∀ o t, asked = (t, .refused o) → exec e s = .next (State.finish s
        ((((t.onPort k (fun p => { p with putaway := none, timer := none })).setMessage k (match o with
          | .badDate | .unknownArticle | .dateAhead => .wrongTyre
          | .duplicateTag => .duplicateTag
          | .noSpace | .storeFull => .storeFull)).notify (.putawayEnded k a.tyre.tag a.tyre.article
            (a.tyre.ordinal % 53 + 1) (a.tyre.ordinal / 53) (some i) .noSlot (some o))).toIdle k)))))
  ∧ (∀ (s : State) (k : CarouselNo) (i j : Nat), s.serving = true →
    let e : Instr := .putawayFoundElsewhere k i j
    let u := s.take e
    ((∀ a, (s.port k).putaway = some a → a.slot ≠ i) → exec e s = .next (State.finish s u))
    ∧ (∀ a, (s.port k).putaway = some a → a.slot = i → exec e s = .next (State.finish s
      ((((u.onPort k (fun p => { p with putaway := none, timer := none })).onPort k (fun p => { p with
        display := ⟨[.dark, .dark, .dark, .dark, .dark, .dark, .dark, .dark], .none⟩ })).notify
          (.putawayEnded k a.tyre.tag a.tyre.article (a.tyre.ordinal % 53 + 1) (a.tyre.ordinal / 53) (some j)
            .foundElsewhere none)).toIdle k))))

/-! ## Picks, releases and planning (01, 02, 04) -/

/-- A release (R17), a pick request (R19, R42, R90, R108) and a substitution request (R20, R39, R42, R91): each is
carried out only where its slots stand as it needs them, and otherwise changes nothing, or counts as a wrong tyre.
(A task that left its presentation is removed where it stands, log entry 20.) -/
def Obligations.ReservationsAreReleasedAndPicked : Prop :=
  ∀ s : State, s.serving = true →
    (∀ i o n,
      let e : Instr := .release i o n
      (∀ t, (s.slot i).content = .reserved t o n → exec e s = .next (State.finish s
        (((((s.take e).writeSlot i ⟨.stored t, (s.slot i).fresh⟩).removeTask i).onLine o n (fun l => { l with
          members := l.members.filter (fun m => m.slot ≠ i) })).hand [.wakeUp t.article])))
      ∧ ((∀ t, (s.slot i).content ≠ .reserved t o n) → exec e s = .next (State.finish s (s.take e))))
    ∧ (∀ (k : CarouselNo) tag o n,
      let e : Instr := .pickRequest k tag o n
      let wrong := ((s.take e).onPort k (fun p => { p with
        wrongTyreCount := min 65535 (p.wrongTyreCount + 1) })).setMessage k .wrongTyre
      (∀ i t, s.tagSlot tag = some i → (s.slot i).content = .reserved t o n → exec e s = .next (State.finish s
        ((((s.take e).writeSlot i ⟨.empty, true⟩).countPick o n i tag t.ordinal).donePick i (i % 8))))
      ∧ ((∀ i t, s.tagSlot tag = some i → (s.slot i).content ≠ .reserved t o n) →
        exec e s = .next (State.finish s wrong)))
    ∧ (∀ (k : CarouselNo) u r,
      let e : Instr := .substitutionRequest k u r
      let wrong := ((s.take e).onPort k (fun p => { p with
        wrongTyreCount := min 65535 (p.wrongTyreCount + 1) })).setMessage k .wrongTyre
      let both (tu tr : Tyre) (o n : Nat) (l : Line) := (s.slot u).content = .stored tu
        ∧ (s.slot r).content = .reserved tr o n ∧ s.findLine o n = some l ∧ tu.article = tr.article
      let checked (p : Nat) (l : Line) := ∃ c, l.captured = some c ∧ s.ageTest c.maxAge p = true
        ∧ (l.rule = .any ∨ (l.rule = .matchingOrOldest ∧ l.fellBack = true)
          ∨ ∀ a b, a ∈ p :: ((l.members.filter (fun m => m.slot ≠ r)).map Member.ordinal ++ extremeList l.extremes) →
              b ∈ p :: ((l.members.filter (fun m => m.slot ≠ r)).map Member.ordinal ++ extremeList l.extremes) →
              a ≤ b + c.window)
      (∀ tu tr o n l, both tu tr o n l → checked tu.ordinal l → exec e s = .next (State.finish s
        ((((((s.take e).writeSlot u ⟨.empty, true⟩).recontent r (.stored tr)).countPick o n r tu.tag
          tu.ordinal).donePick r (u % 8)).hand [.wakeUp tr.article])))
      ∧ ((∀ tu tr o n l, ¬(both tu tr o n l ∧ checked tu.ordinal l)) →
        exec e s = .next (State.finish s wrong)))

/-- What a pick or a substitution does at the line, the lane and the port (R42, R108, R90 to R92), what a removed
task leaves (R17, R58, R92), and the completion test (R49). An order's new state has its lane judged (R113). (A pick
whose task is in no presentation removes it where it stands: log entry 20. The release or pick that empties a
presentation completes it at once: log entry 48. The indicators are in `EndOfEventQueuesDisplaysAndKeepsTheRest`.)
-/
def Obligations.PicksReachLineLaneAndPort : Prop :=
  ((∀ (s : State) (o n i tag p : Nat),
    let counted := (s.onLine o n (fun l => { l with
        members := l.members.filter (fun m => m.slot ≠ i), picked := l.picked + 1,
        extremes := match l.extremes with
          | none => some (p, p)
          | some (lo, hi) => some (min lo p, max hi p) })).onOrder o (fun x => { x with
        unsettled := x.unsettled + 1 })
    s.countPick o n i tag p = (counted.joinExpected o tag).testIfSettled o n)
  ∧ (∀ (s : State) (o tag : Nat),
    (∀ x j, s.findOrder o = some x → x.lane = some j → s.joinExpected o tag = (s.onLane j (fun l => { l with
      expected := l.expected ++
        [⟨tag, o, .inTransit, some (s.lanes.transitTimeout * 1000), s.now⟩] })).judgeLane j)
    ∧ ((∀ x, s.findOrder o = some x → x.lane = none) → s.joinExpected o tag = s))
  ∧ (∀ (s : State) (o n : Nat),
    (∀ l, s.findLine o n = some l → l.state = .done ∨ l.state = .short →
      s.testIfSettled o n = s.completionTest o)
    ∧ ((∀ l, s.findLine o n = some l → l.state ≠ .done ∧ l.state ≠ .short) → s.testIfSettled o n = s))
  ∧ (∀ (s : State) (o : Nat),
    let ended (x : Order) := x.state = .active ∧ (∀ l ∈ x.lines, l.state = .done ∨ l.state = .short)
      ∧ x.unsettled = 0
    (∀ x, s.findOrder o = some x → ended x → s.completionTest o = (s.notify (.orderComplete x.id x.source
        x.acceptance (x.lane.getD 255) (x.lines.map Line.picked).sum (x.lines.map Line.short).sum
        (x.lines.filter (fun l => l.fellBack)).length)).setOrderState o .complete)
    ∧ ((∀ x, s.findOrder o = some x → ¬ended x) → s.completionTest o = s))
  ∧ (∀ (s : State) (i : Nat),
    let k := i / 768
    let holds (pr : Presentation) := (s.port k).work = .presenting pr ∧ pr.carrier = i % 768 / 8
      ∧ ∃ t ∈ pr.tasks, t.position = i % 8
    let emptied (t : State) := (t.onPort k (fun p => { p with timer := none })).toIdle k
    ((∀ pr, ¬holds pr) → s.removeTask i = s.onCarousel k (fun x => { x with
      stops := (x.stops.map (fun y => if y.carrier = i % 768 / 8 then
        { y with tasks := y.tasks.filter (fun t => t.position ≠ i % 8) } else y)).filter
          (fun y => !y.tasks.isEmpty) }))
    ∧ (∀ pr, holds pr →
      let rest : Presentation := { pr with tasks := pr.tasks.filter (fun t => t.position ≠ i % 8) }
      let shown := (s.onPort k (fun p => { p with work := .presenting rest })).rebuild k
      (rest.tasks ≠ [] → s.removeTask i = shown) ∧ (rest.tasks = [] → s.removeTask i = emptied shown))
    ∧ (∀ x, (∀ pr, ¬holds pr) → s.donePick i x = s.removeTask i)
    ∧ (∀ x pr t, holds pr → pr.tasks.find? (fun t => t.position = i % 8) = some t →
      let rest : Presentation := { pr with
        tasks := pr.tasks.filter (fun t => t.position ≠ i % 8), done := sparseInsert x t.lane pr.done }
      let shown := (s.onPort k (fun p => { p with
        work := .presenting rest, timer := some (p.timeout * 1000),
        display := { p.display with message := .none } })).rebuild k
      (rest.tasks ≠ [] → s.donePick i x = shown) ∧ (rest.tasks = [] → s.donePick i x = emptied shown))))
  ∧ (∀ (s : State) (id : Nat) (x : OrderState),
    let t := s.onOrder id (fun o => { o with state := x })
    (∀ o j, s.findOrder id = some o → o.lane = some j → s.setOrderState id x = t.judgeLane j)
    ∧ (∀ o, s.findOrder id = some o → o.lane = none → s.setOrderState id x = t)
    ∧ (s.findOrder id = none → s.setOrderState id x = s))

/-- The selection (R36 to R40): a line of rule NONE, or fallen back, takes the oldest candidates; else the first run
of the quantity asked for that fits the window with the picked extremes, within a carousel where the flag is set and
of the offer with the smallest first ordinal; without one, MATCH takes nothing and MATCH-OR-OLDEST falls back. For a
remainder of 0 nothing is selected and no line falls back (R45). -/
def Obligations.SetsAreSelected : Prop :=
  (∀ (l : Line) (c : Captured) (q : Nat) (cands : List Member), 0 < q →
    let oldest := l.rule = .any ∨ (l.rule = .matchingOrOldest ∧ l.fellBack = true)
    let fits (run : List Member) := run.length = q ∧ ∀ x y,
      x ∈ run.map Member.ordinal ++ extremeList l.extremes →
      y ∈ run.map Member.ordinal ++ extremeList l.extremes → x ≤ y + c.window
    let first (from_ run : List Member) := ∃ before after, from_ = before ++ run ++ after ∧ fits run
      ∧ ∀ b r a, from_ = b ++ r ++ a → fits r → before.length ≤ b.length
    let none_ (from_ : List Member) := ∀ b r a, from_ = b ++ r ++ a → ¬fits r
    let within (k : Nat) := cands.filter (fun m => m.slot / 768 = k)
    let found (run : List Member) := (c.sameCarousel = false ∧ first cands run)
      ∨ (c.sameCarousel = true ∧ ∃ k < 8, first (within k) run ∧ ∀ j < 8, ∀ r, first (within j) r →
          ∀ x y, run.head? = some x → r.head? = some y → x.ordinal < y.ordinal ∨ (x.ordinal = y.ordinal ∧ k ≤ j))
    let nowhere := (c.sameCarousel = false ∧ none_ cands)
      ∨ (c.sameCarousel = true ∧ ∀ k < 8, none_ (within k))
    (oldest → l.select c q cands = (cands.take q, false))
    ∧ (∀ run, ¬oldest → found run → l.select c q cands = (run, false))
    ∧ (¬oldest → nowhere → (l.rule = .matching ∨ cands = [] → l.select c q cands = ([], false))
      ∧ (l.rule = .matchingOrOldest → cands ≠ [] → l.select c q cands = (cands.take q, true))))
  ∧ (∀ (l : Line) (c : Captured) (cands : List Member), l.select c 0 cands = ([], false))

/-- The candidate list (R35) and the age test (R10): the first 64 of the article's list that are STORED, on a
carousel in service that is not excluded, and pass the age test; the list itself is by ordinal, then by slot. The
age test passes for a limit of 0, while the calendar is not set, for a tyre dated ahead, and for an age within the
limit, and fails for every other. -/
def Obligations.CandidatesAreEligible : Prop :=
  (∀ (s : State) (a m : Nat) (x : Option Nat),
    let inService (k : Nat) := (s.carousel k).state = .standing ∨ (s.carousel k).state = .moving
      ∨ (s.carousel k).state = .interrupted ∨ (s.carousel k).state = .curtainWait
    let age (p : Nat) := (s.stock.calendar.ordinal + (5300 - p % 5300)) % 5300
    let young (p : Nat) := m = 0 ∨ s.stock.calendar.isSet = false ∨ 4240 < age p ∨ age p ≤ m
    (∃ all : List Member, s.candidates a m x = all.take 64
      ∧ all = (s.articleList a).filter (fun e => all.contains e)
      ∧ ∀ e, e ∈ all ↔ e ∈ s.articleList a ∧ (∃ t, (s.slot e.slot).content = .stored t)
        ∧ inService (e.slot / 768) ∧ x ≠ some (e.slot / 768) ∧ young e.ordinal)
    ∧ (TablesOk s →
      (∀ i p, ⟨i, p⟩ ∈ s.articleList a ↔ ∃ g, (s.slot i).content.listed = some g ∧ g.article = a ∧ g.ordinal = p)
      ∧ (s.articleList a).Pairwise (fun e f => e.ordinal < f.ordinal ∨ (e.ordinal = f.ordinal ∧ e.slot < f.slot))))
  ∧ (∀ (s : State) (m p : Nat),
    let age := (s.stock.calendar.ordinal + (5300 - p % 5300)) % 5300
    s.ageTest m p = true ↔ m = 0 ∨ s.stock.calendar.isSet = false ∨ 4240 < age ∨ age ≤ m)

/-- A planning step (R33, R34, R41, R16): the first step captures the policy, or makes the line SHORT where the bank
has no record of its article; the step reserves what is selected, in candidate order, with its tasks, clears the
mark, and settles the line by what remains and the shortage policy; the planning then goes on (R30). A step of a
line already planned, of a COMPLETE order too, is carried out and clears the mark (R43, R45); the replan handed for
the mark goes with it (log entry 37). (A step of any other line changes nothing, log entry 39.) A task joins the
presentation of its carrier, with its display rebuilt, else the stop of its carrier, else a new stop at the tail
with the next creation sequence, and a list that was empty may make the port call (R57): that the call is made as
the first stop joins, before the reservation's other tasks, is the model's reading (log entry 19). Tasks stand by
position. A step leaves the line's reserved, picked and short counts together no more than its quantity (R31). A
line is WAITING or OPEN while it has a remainder, as its wait timer runs or not, else RESERVED with a member, SHORT
with a short count, and DONE (R32). -/
def Obligations.PlanningStepsAreTaken : Prop :=
  (((∀ (s : State) (id n : Nat), s.serving = true →
    let e : Instr := .planningStep id n
    let u := s.take e
    ((∀ o l, s.findOrder id = some o → o.findLine n = some l → o.state = .cancelled ∨ o.state = .shortClosed
        ∨ (o.planned < n ∧ ¬(o.state = .planning ∧ n = o.planned + 1))) →
      exec e s = .next (State.finish s u))
    ∧ (∀ o l, s.findOrder id = some o → o.findLine n = some l → o.state ≠ .cancelled → o.state ≠ .shortClosed →
      (n ≤ o.planned → exec e s = .next (State.finish s ((u.stepLine o n).testIfSettled id n)))
      ∧ (o.planned < n → o.state = .planning → n = o.planned + 1 →
        let stepped := match s.article l.article with
          | none => (u.onLine id n (fun l => { l with short := l.quantity })).notify
              (.orderShort id o.source n l.article l.quantity .unknownArticle)
          | some r => (u.onLine id n (fun l => { l with captured := some ⟨(s.profile r.profile).window,
              (s.profile r.profile).maxAge, (s.profile r.profile).sameCarousel⟩ })).stepLine o n
        let counted := stepped.onOrder id (fun o => { o with planned := n })
        (n < o.lines.length → exec e s = .next (State.finish s (counted.hand [.planningStep id (n + 1)])))
        ∧ (o.lines.length ≤ n → exec e s = .next (State.finish s
          (((counted.setOrderState id .active).completionTest id).takeUp))))))
  ∧ (∀ (s : State) (o : Order) (n : Nat) (l : Line) (c : Captured), s.findLine o.id n = some l →
    l.captured = some c →
    let excluded := match l.mark with | some m => m.excluded | none => none
    let r := l.select c l.remainder (s.candidates l.article c.maxAge excluded)
    let flagged := s.onLine o.id n (fun l => { l with fellBack := l.fellBack || r.2 })
    let task (m : Member) : PickTask := ⟨o.id, n, m.slot % 8, o.lane.getD 0, c.window⟩
    let joined := r.1.foldl (fun t m => (t.onLine o.id n (fun l => { l with members := l.members ++ [m] })).placeTask
      (m.slot / 768) (m.slot % 768 / 8) (task m)) (r.1.foldl (fun t m => t.reserveSlot o.id n m) flagged)
    let unmarked := (joined.onLine o.id n (fun l => { l with mark := none })).take (.replan o.id n .mark)
    s.stepLine o n = unmarked.settleLine o n)
  ∧ (∀ (s : State) (o : Order) (n : Nat) (l : Line), s.findLine o.id n = some l →
    (l.remainder = 0 → s.settleLine o n = s.onLine o.id n (fun l => { l with wait := none }))
    ∧ (∀ limit, l.remainder ≠ 0 → o.shortage = .hold limit →
      s.settleLine o n = s.onLine o.id n (fun l => { l with wait := some (l.wait.getD (limit * 60000)) }))
    ∧ (l.remainder ≠ 0 → o.shortage = .shipShort → s.settleLine o n = s.shortLine o n .notAvailable)
    ∧ l.remainder = l.quantity - (l.members.length + l.picked + l.short)
    ∧ (∀ cause, ∃ l', (s.onLine o.id n (fun l => { l with short := l.short + l.remainder, wait := none })).findLine
        o.id n = some l' ∧ s.shortLine o n cause = (s.onLine o.id n (fun l => { l with
          short := l.short + l.remainder, wait := none })).notify
            (.orderShort o.id o.source l'.number l'.article l'.short cause)))
  ∧ (∀ (s : State) (m : Member) (o n : Nat),
    (∀ t, (s.slot m.slot).content = .stored t →
      s.reserveSlot o n m = s.writeSlot m.slot ⟨.reserved t o n, (s.slot m.slot).fresh⟩)
    ∧ ((∀ t, (s.slot m.slot).content ≠ .stored t) → s.reserveSlot o n m = s)))
  ∧ ((∀ (s : State) (k c : Nat) (t : PickTask),
    let x := s.carousel k
    let presented (r : Presentation) := (s.port k).work = .presenting r ∧ r.carrier = c ∧ (s.port k).mode = .pick
    (∀ r, presented r → s.placeTask k c t = (s.onPort k (fun p => { p with
      work := .presenting { r with tasks := addTask t r.tasks } })).rebuild k)
    ∧ ((∀ r, ¬presented r) →
      ((∃ y ∈ x.stops, y.carrier = c) → s.placeTask k c t = s.onCarousel k (fun x => { x with
        stops := x.stops.map (fun y => if y.carrier = c then { y with tasks := addTask t y.tasks } else y) }))
      ∧ ((∀ y ∈ x.stops, y.carrier ≠ c) →
        let created := s.onCarousel k (fun x => { x with stops := x.stops ++ [⟨c, [t], s.motion.creations, 0⟩] })
        let counted : State := { created with motion := { created.motion with
          creations := (s.motion.creations + 1) % 65536 } }
        (x.stops ≠ [] → s.placeTask k c t = counted)
        ∧ (x.stops = [] → s.placeTask k c t = counted.autoCall k))))
  ∧ (∀ (t : PickTask) (first rest : List PickTask), (∀ x ∈ first, x.position ≤ t.position) →
      (∀ x, rest.head? = some x → t.position < x.position) → addTask t (first ++ rest) = first ++ t :: rest)
  ∧ (∀ (s : State) (o : Order) (n : Nat) (l : Line), s.findLine o.id n = some l →
      l.members.length + l.picked + l.short ≤ l.quantity →
      ∃ l', (s.stepLine o n).findLine o.id n = some l' ∧ l'.quantity = l.quantity ∧ l'.picked = l.picked
        ∧ l'.members.length + l'.picked + l'.short ≤ l'.quantity)))
  ∧ (∀ l : Line,
    (l.remainder ≠ 0 → l.wait ≠ none → l.state = .waiting)
    ∧ (l.remainder ≠ 0 → l.wait = none → l.state = .open)
    ∧ (l.remainder = 0 → l.members ≠ [] → l.state = .reserved)
    ∧ (l.remainder = 0 → l.members = [] → l.short ≠ 0 → l.state = .short)
    ∧ (l.remainder = 0 → l.members = [] → l.short = 0 → l.state = .done))

/-- A replan (R44), a wake-up (R46) and a wait timer's expiry (R45), and the taking up of the next order (R30): the
releases of a searching line's members and its step are handed first; each WAITING line of the article is handed a
replan; the remainder becomes short. (That they go before what was handed earlier is log entry 21; that an expiry of
a stopped wait timer changes nothing, and one of a running timer happens whatever time is left, log entry 5.) -/
def Obligations.ReplansWakeUpsAndWaits : Prop :=
  ∀ s : State, s.serving = true →
    (∀ id n cause,
      let e : Instr := .replan id n cause
      let u := s.take e
      let wanted (o : Order) (l : Line) := o.state ≠ .cancelled ∧ o.state ≠ .shortClosed
        ∧ (cause = .mark → l.mark ≠ none) ∧ (cause = .wakeUp → l.state = .waiting)
      ((∀ o l, s.findOrder id = some o → o.findLine n = some l → ¬wanted o l) →
        exec e s = .next (State.finish s u))
      ∧ (∀ o l, s.findOrder id = some o → o.findLine n = some l → wanted o l →
        (l.rule = .any ∨ (l.rule = .matchingOrOldest ∧ l.fellBack = true) → exec e s =
          .next (State.finish s { u with handed := .planningStep id n :: u.handed }))
        ∧ (l.rule = .matching ∨ (l.rule = .matchingOrOldest ∧ l.fellBack = false) →
          let asked := l.members.map (fun m => Instr.release m.slot id n) ++ [.planningStep id n]
          exec e s = .next (State.finish s { u with handed := asked ++ u.handed }))))
    ∧ (∀ a, exec (.wakeUp a) s = .next (State.finish s ((s.take (.wakeUp a)).hand
      (s.planner.orders.flatMap (fun o => (o.lines.filter (fun l => l.article = a ∧ l.state = .waiting)).map
        (fun l => .replan o.id l.number .wakeUp))))))
    ∧ (∀ id n,
      let e : Instr := .waitTimerExpiry id n
      ((∀ o l, s.findOrder id = some o → o.findLine n = some l → l.wait = none) →
        exec e s = .next (State.finish s (s.take e)))
      ∧ (∀ o l, s.findOrder id = some o → o.findLine n = some l → l.wait ≠ none → exec e s =
        .next (State.finish s (((s.take e).shortLine o n .waitExpired).testIfSettled id n))))
    ∧ ((∃ o ∈ s.planner.orders, o.state = .planning) → s.takeUp = s)
    ∧ ((∀ o ∈ s.planner.orders, o.state ≠ .planning) →
      ((∀ o ∈ s.planner.orders, o.state ≠ .queued) → s.takeUp = s)
      ∧ (∀ before o after, s.planner.orders = before ++ o :: after → o.state = .queued →
        (∀ x ∈ before, x.state = .queued → 3 - o.priority < 3 - x.priority) →
        (∀ x ∈ after, x.state = .queued → 3 - o.priority ≤ 3 - x.priority) →
        s.takeUp = (s.setOrderState o.id .planning).hand [.planningStep o.id 1]))

/-! ## Lanes and gates (05, 06) -/

/-- The conveyor's reports and the transit timers (R109 to R111, R115): an awaited tag settles its earliest entry,
late after LOST, with its order's count; another tag is foreign, unless the lane has it settled; an entry still
IN-TRANSIT becomes LOST; an OPENING lane empties with its orders and is offered anew, or fails to open. (The offer
is in `OrdersAreBoundToLanes`. The rounding of a late arrival's seconds is log entry 34, an expiry of a stopped
timer log entry 5.) -/
def Obligations.LaneEventsAreTaken : Prop :=
  ∀ s : State, s.serving = true →
    (∀ j tag,
      let e : Instr := .arrive j tag
      let u := s.take e
      let l := s.lane j
      let awaits (x : Entry) := x.tag = tag ∧ (x.state = .inTransit ∨ x.state = .lost)
      (23 < j → exec e s = .next (State.finish s u))
      ∧ (∀ before x after, j ≤ 23 → l.expected = before ++ x :: after → (∀ y ∈ before, ¬awaits y) → awaits x →
        let settled := u.onLane j (fun l => { l with
          expected := before ++ { x with state := if x.state = .lost then .late else .arrived, timer := none } :: after })
        let told := if x.state = .lost then settled.notify
          (.lateArrival j tag x.order (min 65535 ((s.now - x.pickedAt) / 1000))) else settled
        exec e s = .next (State.finish s (((told.onOrder x.order (fun o => { o with
          unsettled := o.unsettled - 1 })).completionTest x.order).judgeLane j)))
      ∧ (j ≤ 23 → (∀ x ∈ l.expected, ¬awaits x) → (∃ x ∈ l.expected, x.tag = tag) →
        exec e s = .next (State.finish s u))
      ∧ (∀ other : Option Nat, j ≤ 23 → (∀ x ∈ l.expected, x.tag ≠ tag) →
        (∀ i, other = some i → i ≤ 23 ∧ (∃ x ∈ (s.lane i).expected, awaits x)
          ∧ ∀ h < i, ∀ x ∈ (s.lane h).expected, ¬awaits x) →
        (other = none → ∀ h ≤ 23, ∀ x ∈ (s.lane h).expected, ¬awaits x) →
        exec e s = .next (State.finish s (((u.onLane j (fun l => { l with
          foreign := min 255 (l.foreign + 1) })).notify (.misrouted j tag other)).judgeLane j))))
    ∧ (∀ j i,
      let e : Instr := .transitTimerExpiry j i
      ((∀ x, (s.lane j).expected[i]? = some x → x.state ≠ .inTransit ∨ x.timer = none) →
        exec e s = .next (State.finish s (s.take e)))
      ∧ (∀ x, (s.lane j).expected[i]? = some x → x.state = .inTransit → x.timer ≠ none →
        let lost := (s.take e).onLane j (fun l => { l with
          expected := l.expected.set i { x with state := .lost, timer := none } })
        let source := match s.findOrder x.order with | some o => o.source | none => 0
        exec e s = .next (State.finish s
          ((lost.notify (.transitLost j x.tag x.order source)).judgeLane j))))
    ∧ (∀ j,
      let e : Instr := .laneEmpty j
      let l := s.lane j
      let count (x : EntryState) := (l.expected.filter (fun y => y.state = x)).length
      (l.state ≠ .opening → exec e s = .next (State.finish s (s.take e)))
      ∧ (l.state = .opening →
        let told := (s.take e).notify (.laneEmptied j l.chain (count .arrived) (count .late) (count .lost)
          (count .inTransit) l.foreign)
        let freed := ({ told with planner := { told.planner with
          orders := told.planner.orders.filter (fun o => !l.bound.contains o.id) } } : State).setLane j {}
        exec e s = .next (State.finish s (freed.offerLane j))))
    ∧ (∀ j,
      let e : Instr := .returnedLaneOpen j
      let l := s.lane j
      let fit := l.closed = true
        ∧ (∀ id ∈ l.bound, ∀ o, s.findOrder id = some o →
            o.state = .complete ∨ o.state = .cancelled ∨ o.state = .shortClosed)
        ∧ (∀ x ∈ l.expected, x.state = .arrived ∨ x.state = .late) ∧ l.foreign = 0
      let failed (x : LaneState) := ((s.take e).onLane j (fun l => { l with state := x })).notify (.laneOpenFailed j x)
      (l.state ≠ .opening → exec e s = .next (State.finish s (s.take e)))
      ∧ (l.state = .opening → fit → exec e s = .next (State.finish s (failed .ready)))
      ∧ (l.state = .opening → ¬fit → exec e s = .next (State.finish s (failed .filling))))

/-- GATE (R120, R121, R128, R129): every report is counted; one that is judged goes through its positions in order,
then raises the carrier's streak where nothing was found and nothing doubtful, and a zone whose carriers all have
the quota is certified. The swap pair of a position (R121) is the lowest other position whose tag was seen here
while this one's was seen there, both slots STORED or RESERVED and not fresh, and each tag seen once. -/
def Obligations.GateReportsAreJudged : Prop :=
  ((∀ (s : State) (k : CarouselNo) (c : Nat) (tags : List Nat), s.serving = true →
    let e : Instr := .gate k c tags
    let a := s.auditRecord k
    let z := (s.carousel k).zone c
    let p := (s.carousel k).positions
    let u := (s.take e).onAudit k (fun a => { a with reports := min 65535 (a.reports + 1) })
    let judged := c < (s.carousel k).carriers ∧ (s.carousel k).state ≠ .offline
      ∧ ((a.mode = .continuous ∧ a.enabled.getLsbD z = true) ∨ (a.mode = .zoneCycle ∧ a.cursor = some z))
      ∧ ∀ x, (s.port k).work = .presenting x → x.carrier ≠ c
    (¬judged → exec e s = .next (State.finish s u))
    ∧ (judged →
      let g := (List.range p).foldl (Judgement.position (u.swapPartner tags k c p) tags k c p) ⟨u, false, false⟩
      (g.found = true ∨ g.doubtful = true → exec e s = .next (State.finish s (g.state.certify k)))
      ∧ (g.found = false → g.doubtful = false → exec e s = .next (State.finish s
        ((g.state.onAudit k (fun a => { a with
          streaks := sparseSet 0 c (min 4 (a.streak c + 1)) a.streaks })).certify k)))))
  ∧ (∀ (s : State) (k : Nat),
    let a := s.auditRecord k
    let inZone (z x : Nat) := x < (s.carousel k).carriers ∧ (s.carousel k).zone x = z
    (∀ z, a.mode = .zoneCycle → a.cursor = some z → (∀ x, inZone z x → a.quota ≤ a.streak x) →
      s.certify k = (s.notify (.auditZoneCertified k z (a.count z)
        ((List.range (s.carousel k).carriers).filter (fun x => (s.carousel k).zone x = z)).length)).enterZone k
          (s.zoneAfter k z))
    ∧ (∀ z x, a.cursor = some z → inZone z x → a.streak x < a.quota → s.certify k = s)
    ∧ (a.mode ≠ .zoneCycle ∨ a.cursor = none → s.certify k = s)
    ∧ (∀ z, (∀ y, s.zoneAfter k z = some y → s.zoneActive k y = true)
      ∧ (∀ y, z < y → y < 16 → s.zoneActive k y = true → (∀ x, z < x → x < y → s.zoneActive k x = false) →
        s.zoneAfter k z = some y)
      ∧ (∀ y, y < 16 → s.zoneActive k y = true → (∀ x, x < 16 → z < x → s.zoneActive k x = false) →
        (∀ x < y, s.zoneActive k x = false) → s.zoneAfter k z = some y))))
  ∧ (∀ (s : State) (tags : List Nat) (k c p x : Nat),
    let slot (y : Nat) := s.slot (k * 768 + c * 8 + y)
    let seen (y : Nat) : Option Nat := if tags.getD y 0 = 0 then none else some (tags.getD y 0)
    let records (y tag : Nat) := ∃ t, t.tag = tag
      ∧ ((slot y).content = .stored t ∨ ∃ o n, (slot y).content = .reserved t o n)
    let once (y : Nat) := ∀ z < p, z ≠ y → seen z ≠ seen y
    let pair (y : Nat) := y < p ∧ x ≠ y ∧ (∃ a b, records x a ∧ records y b ∧ seen x = some b ∧ seen y = some a)
      ∧ (slot x).fresh = false ∧ (slot y).fresh = false ∧ once x ∧ once y
    (∀ y, s.swapPartner tags k c p x = some y ↔ pair y ∧ ∀ z < y, ¬pair z)
    ∧ (s.swapPartner tags k c p x = none ↔ ∀ y, ¬pair y))

/-- The comparison of one position (R121 to R126, R21 to R23): the fresh mark is cleared; a tag seen twice or a
fresh slot in a disagreement leaves it unsettled; else an agreement, or a discrepancy with its hold or move, its log
entry, its zone's count and the streak at 0. A swap pair, whichever positions are paired, is exchanged or held,
once, at its lower position. (Which positions are paired is in `GateReportsAreJudged`; what a slot's content is
judged by, and the DISPLACED entry, in `AuditHoldsAndMoves`. What is compared for a duplicate, and the expected tag
of a HELD slot, are log entries 40 and 41.) -/
def Obligations.PositionsAreCompared : Prop :=
  (∀ (g : Judgement) (tags : List Nat) (k c p x : Nat) (pairs : Nat → Option Nat),
    let i := k * 768 + c * 8 + x
    let s := g.state
    let o : Option Nat := if tags.getD x 0 = 0 then none else some (tags.getD x 0)
    let twice := o ≠ none ∧ ∃ y < p, y ≠ x ∧ tags.getD y 0 = tags.getD x 0
    let t := s.setSlot i { s.slot i with fresh := false }
    let verdict := s.verdict i o
    let fresh := ((verdict = .missing ∨ verdict = .unexpected) ∧ (s.slot i).fresh = true)
      ∨ ∃ v, verdict = .foreign v ∧ ((s.slot i).fresh = true ∨ (s.slot v).fresh = true)
    (∀ y, pairs x = some y →
      (x < y → g.position pairs tags k c p x = ⟨s.carrySwap k c x y, true, g.doubtful⟩)
      ∧ (y ≤ x → g.position pairs tags k c p x = g))
    ∧ (pairs x = none →
      (twice ∨ fresh → g.position pairs tags k c p x = ⟨t, g.found, true⟩)
      ∧ (¬(twice ∨ fresh) →
        (verdict = .agreement → g.position pairs tags k c p x = ⟨t, g.found, g.doubtful⟩)
        ∧ (verdict = .missing → g.position pairs tags k c p x =
          ⟨(t.holdMissing i).discrepancy k c i .missing (s.slot i).content.judgedTag o none, true, g.doubtful⟩)
        ∧ (verdict = .unexpected → g.position pairs tags k c p x =
          ⟨(t.holdUnexpected i (o.getD 0)).discrepancy k c i .unexpected none o none, true, g.doubtful⟩)
        ∧ (∀ v, verdict = .foreign v → g.position pairs tags k c p x =
          ⟨((t.foreignMove i v (o.getD 0)).discrepancy k c i .foreign (s.slot i).content.ownTag o (some v)).logDisplaced
            i (s.slot i).content.ownTag o, true, g.doubtful⟩))))
  ∧ (∀ (s : State) (i : Nat) (o : Option Nat),
    let x := (s.slot i).content
    let held := ∃ h, x = .held h
    let recorded : Option Nat := match x with
      | .stored t => some t.tag
      | .reserved t _ _ => some t.tag
      | .empty | .inbound _ | .held _ | .blocked => none
    let elsewhere (v : Nat) := ∃ tag, o = some tag ∧ s.tagElsewhere tag i = some v
    (¬held → o = recorded → s.verdict i o = .agreement)
    ∧ (∀ v, (held ∨ o ≠ recorded) → elsewhere v → s.verdict i o = .foreign v)
    ∧ (held → (∀ v, ¬elsewhere v) → s.verdict i o = .agreement)
    ∧ (¬held → o ≠ recorded → (∀ v, ¬elsewhere v) → recorded ≠ none → s.verdict i o = .missing)
    ∧ (¬held → o ≠ recorded → (∀ v, ¬elsewhere v) → recorded = none → s.verdict i o = .unexpected))
  ∧ (∀ (s : State) (k c i : Nat) (kind : Finding) (e o v : Option Nat),
    s.discrepancy k c i kind e o v = (s.logFinding i kind e o v).onAudit k (fun a => { a with
      counts := sparseSet 0 ((s.carousel k).zone c) (min 255 (a.count ((s.carousel k).zone c) + 1)) a.counts,
      streaks := sparseErase c a.streaks }))

/-- The audit's changes to the slot table (R18, R21 to R23, R118, R123, R125): the holds, the exchange, the FOREIGN
move, a cancelled reservation, and the log entry with its notice, the oldest leaving at 128. The DISPLACED entry of
R126, with the removed tag as expected and the tag seen as observed, is made only where the slot recorded a tag of
its own. A position is judged by its slot's tag where that is STORED or RESERVED (R123); the tag of its own that a
slot records is that, or a HELD slot's (log entry 40). A BLOCKED slot where a tyre was seen is left as it is (R123).
(A reservation is cancelled before the slot is written, so a presentation it empties completes first: log entry 64.
A mark that excludes one carousel already takes the new exclusion by log entry 47.) -/
def Obligations.AuditHoldsAndMoves : Prop :=
  ((∀ s : State,
    (∀ i,
      (∀ t o n, (s.slot i).content = .reserved t o n → s.cancelReservation i = ((s.removeTask i).onLine o n
        (fun l => { l with members := l.members.filter (fun m => m.slot ≠ i) })).markLine o n none)
      ∧ ((∀ t o n, (s.slot i).content ≠ .reserved t o n) → s.cancelReservation i = s)
      ∧ (∀ t, (s.slot i).content = .stored t ∨ (∃ o n, (s.slot i).content = .reserved t o n) →
        s.holdMissing i = (s.cancelReservation i).recontent i (.held (.missing t))
        ∧ s.holdSwapped i = (s.cancelReservation i).recontent i (.held (.swapped t)))
      ∧ (∀ tag, (s.slot i).content = .empty → s.holdUnexpected i tag = s.recontent i (.held (.unexpected tag)))
      ∧ (∀ (k : CarouselNo) tag t, (s.slot i).content = .inbound t → i / 768 = k → s.holdUnexpected i tag =
        (s.recontent i (.held (.unexpected tag))).hand [.putawayWithdrawn k i])
      ∧ (∀ x, s.recontent i x = s.writeSlot i ⟨x, (s.slot i).fresh⟩))
    ∧ (∀ k c x y,
      let i := k * 768 + c * 8 + x
      let j := k * 768 + c * 8 + y
      (∀ tx ty, (s.auditRecord k).autoCorrect = true → (s.slot i).content = .stored tx →
        (s.slot j).content = .stored ty → s.carrySwap k c x y =
          ((((s.writeSlot i ⟨.stored ty, true⟩).writeSlot j ⟨.stored tx, true⟩).discrepancy k c i .corrected
            (some tx.tag) (some ty.tag) none).discrepancy k c j .corrected (some ty.tag) (some tx.tag) none))
      ∧ ((s.auditRecord k).autoCorrect = false ∨ (∀ t, (s.slot i).content ≠ .stored t)
          ∨ (∀ t, (s.slot j).content ≠ .stored t) → s.carrySwap k c x y =
          ((((s.holdSwapped i).holdSwapped j).discrepancy k c i .swapped (s.slot i).content.judgedTag
            (s.slot j).content.judgedTag none).discrepancy k c j .swapped (s.slot j).content.judgedTag
              (s.slot i).content.judgedTag none)))
    ∧ (∀ t v o,
      let told (u : State) (i : Nat) (event : CarouselNo → Instr) := u.tellPort i event
      let cleared := told (s.cancelReservation t) t (fun k => .putawayWithdrawn k t)
      let freed := told (cleared.cancelReservation v) v (fun k => .putawayFoundElsewhere k v t)
      let moved := freed.recontent t (.held (.foreign o (s.slot v).content.goods))
      ((∀ x, (s.slot v).content ≠ .inbound x) → s.foreignMove t v o = moved.recontent v (.held .vacated))
      ∧ (∀ x, (s.slot v).content = .inbound x → s.foreignMove t v o = moved.recontent v .empty))
    ∧ (∀ i (f : CarouselNo → Instr),
      (∀ (k : CarouselNo) x, (s.slot i).content = .inbound x → i / 768 = k → s.tellPort i f = s.hand [f k])
      ∧ ((∀ x, (s.slot i).content ≠ .inbound x) → s.tellPort i f = s))
    ∧ (∀ i kind e o v,
      let n := if 65535 ≤ s.audit.logCount then 1 else s.audit.logCount + 1
      let entry : LogEntry := ⟨n, i, kind, e, o, v⟩
      s.logFinding i kind e o v = ({ s with audit := { s.audit with
          log := (if 128 ≤ s.audit.log.length then s.audit.log.drop 1 else s.audit.log) ++ [entry],
          logCount := n } } : State).notify (.auditDiscrepancy (i / 768) entry))
    ∧ (∀ o n x,
      (s.findLine o n = none → s.markLine o n x = s)
      ∧ (∀ l, s.findLine o n = some l →
        let marked := s.onLine o n (fun l => { l with
          mark := if l.mark ≠ none ∧ x = none then l.mark else some ⟨x⟩ })
        (l.mark = none → s.markLine o n x = marked.hand [.replan o n .mark])
        ∧ (l.mark ≠ none → s.markLine o n x = marked))))
  ∧ (∀ (s : State) (i tag : Nat), (s.slot i).content = .blocked → s.holdUnexpected i tag = s))
  ∧ ((∀ (s : State) (i : Nat) (own o : Option Nat),
    (own = none → s.logDisplaced i own o = s)
    ∧ (own ≠ none → s.logDisplaced i own o = s.logFinding i .displaced own o none))
  ∧ (∀ (t : Tyre) (o n tag : Nat) (h : Hold) (g : Option Goods),
    [Content.empty, .inbound t, .stored t, .reserved t o n, .held h, .blocked].map Content.judgedTag
      = [none, none, some t.tag, some t.tag, none, none]
    ∧ [Content.empty, .inbound t, .stored t, .reserved t o n, .held h, .blocked].map Content.ownTag
      = [none, none, some t.tag, some t.tag, h.tag, none]
    ∧ [Hold.missing t, .unexpected tag, .swapped t, .foreign tag g, .vacated, .conflict t, .loaded t].map Hold.tag
      = [some t.tag, some tag, some t.tag, some tag, none, some t.tag, some t.tag]))
end

