-- ==== Sys2Proof/Laws/Sparse.lean ====
section
/-! SUPPORT. The laws of sparse tables: a read after a write, and the canonical form kept. -/

namespace Sys2Proof.Machine

variable {α : Type}

theorem sparseFind_insert_same (k : Nat) (v : α) (m : Sparse α) :
    sparseFind k (sparseInsert k v m) = some v := by
  induction m with
  | nil => simp [sparseInsert, sparseFind]
  | cons e rest ih =>
    obtain ⟨j, w⟩ := e
    simp only [sparseInsert]
    split
    · simp [sparseFind]
    · split
      · simp [sparseFind]
      · simp [sparseFind, *]

theorem sparseFind_insert_other {k j : Nat} (h : j ≠ k) (v : α) (m : Sparse α) :
    sparseFind j (sparseInsert k v m) = sparseFind j m := by
  induction m with
  | nil => simp [sparseInsert, sparseFind, h.symm]
  | cons e rest ih =>
    obtain ⟨i, w⟩ := e
    simp only [sparseInsert]
    split
    · simp [sparseFind, h.symm]
    · split
      · rename_i heq; subst heq; simp [sparseFind, h.symm]
      · simp [sparseFind, ih]

theorem sparseFind_erase_same (k : Nat) (m : Sparse α) : sparseFind k (sparseErase k m) = none := by
  induction m with
  | nil => rfl
  | cons e rest ih =>
    obtain ⟨j, w⟩ := e
    simp only [sparseErase]
    split
    · exact ih
    · simp [sparseFind, *]

theorem sparseFind_erase_other {k j : Nat} (h : j ≠ k) (m : Sparse α) :
    sparseFind j (sparseErase k m) = sparseFind j m := by
  induction m with
  | nil => rfl
  | cons e rest ih =>
    obtain ⟨i, w⟩ := e
    simp only [sparseErase]
    split
    · rename_i heq; subst heq; simp [sparseFind, h.symm, ih]
    · simp [sparseFind, ih]

variable [DecidableEq α]

/-- A read after a write to the same key gives the value written. -/
@[simp] theorem sparseGet_set_same (d : α) (k : Nat) (v : α) (m : Sparse α) :
    sparseGet d k (sparseSet d k v m) = v := by
  unfold sparseSet sparseGet
  split
  · simp [sparseFind_erase_same, *]
  · simp [sparseFind_insert_same]

/-- A write leaves every other key alone. -/
theorem sparseGet_set_other (d : α) {k j : Nat} (h : j ≠ k) (v : α) (m : Sparse α) :
    sparseGet d j (sparseSet d k v m) = sparseGet d j m := by
  unfold sparseSet sparseGet
  split
  · rw [sparseFind_erase_other h]
  · rw [sparseFind_insert_other h]

/-- A read after a write, by cases. -/
theorem sparseGet_set (d : α) (k j : Nat) (v : α) (m : Sparse α) :
    sparseGet d j (sparseSet d k v m) = if j = k then v else sparseGet d j m := by
  split
  · subst_vars; simp
  · exact sparseGet_set_other d ‹_› v m

/-! ## The canonical form -/

omit [DecidableEq α] in
theorem mem_sparseErase {k : Nat} {e : Nat × α} {m : Sparse α} (h : e ∈ sparseErase k m) :
    e ∈ m ∧ e.1 ≠ k := by
  induction m with
  | nil => simp [sparseErase] at h
  | cons x rest ih =>
    obtain ⟨j, w⟩ := x
    simp only [sparseErase] at h
    split at h
    · exact ⟨List.mem_cons_of_mem _ (ih h).1, (ih h).2⟩
    · rcases List.mem_cons.1 h with rfl | h
      · exact ⟨List.mem_cons_self, ‹_›⟩
      · exact ⟨List.mem_cons_of_mem _ (ih h).1, (ih h).2⟩

omit [DecidableEq α] in
theorem mem_sparseInsert {k : Nat} {v : α} {e : Nat × α} {m : Sparse α} (h : e ∈ sparseInsert k v m) :
    e = (k, v) ∨ e ∈ m := by
  induction m with
  | nil => simpa [sparseInsert] using h
  | cons x rest ih =>
    obtain ⟨j, w⟩ := x
    simp only [sparseInsert] at h
    split at h
    · simpa using h
    · split at h
      · rcases List.mem_cons.1 h with rfl | h
        · exact .inl rfl
        · exact .inr (List.mem_cons_of_mem _ h)
      · rcases List.mem_cons.1 h with rfl | h
        · exact .inr List.mem_cons_self
        · exact (ih h).imp id (List.mem_cons_of_mem _)

omit [DecidableEq α] in
theorem sparseRising_cons {j : Nat} {w : α} {rest : Sparse α} :
    sparseRising ((j, w) :: rest) = true ↔ (∀ e ∈ rest, j < e.1) ∧ sparseRising rest = true := by
  simp [sparseRising]

omit [DecidableEq α] in
theorem sparseRising_erase (k : Nat) {m : Sparse α} (h : sparseRising m = true) :
    sparseRising (sparseErase k m) = true := by
  induction m with
  | nil => rfl
  | cons x rest ih =>
    obtain ⟨j, w⟩ := x
    obtain ⟨hj, hr⟩ := sparseRising_cons.1 h
    simp only [sparseErase]
    split
    · exact ih hr
    · exact sparseRising_cons.2 ⟨fun e he => hj e (mem_sparseErase he).1, ih hr⟩

omit [DecidableEq α] in
theorem sparseRising_insert (k : Nat) (v : α) {m : Sparse α} (h : sparseRising m = true) :
    sparseRising (sparseInsert k v m) = true := by
  induction m with
  | nil => rfl
  | cons x rest ih =>
    obtain ⟨j, w⟩ := x
    obtain ⟨hj, hr⟩ := sparseRising_cons.1 h
    simp only [sparseInsert]
    split
    · rename_i hk
      refine sparseRising_cons.2 ⟨fun e he => ?_, h⟩
      rcases List.mem_cons.1 he with rfl | he
      · exact hk
      · exact lt_trans hk (hj e he)
    · split
      · rename_i heq; subst heq; exact sparseRising_cons.2 ⟨hj, hr⟩
      · refine sparseRising_cons.2 ⟨fun e he => ?_, ih hr⟩
        rcases mem_sparseInsert he with rfl | he
        · simp only; omega
        · exact hj e he

theorem sparseProper_iff {d : α} {m : Sparse α} :
    sparseProper d m = true ↔ ∀ e ∈ m, e.2 ≠ d := by
  induction m with
  | nil => simp [sparseProper]
  | cons x rest ih => obtain ⟨j, w⟩ := x; simp [sparseProper, ih]

/-- A write keeps the canonical form. -/
theorem sparseCanonical_set {d : α} (k : Nat) (v : α) {m : Sparse α} (h : sparseCanonical d m = true) :
    sparseCanonical d (sparseSet d k v m) = true := by
  simp only [sparseCanonical, Bool.and_eq_true] at h ⊢
  unfold sparseSet
  split
  · exact ⟨sparseRising_erase k h.1,
      sparseProper_iff.2 fun e he => sparseProper_iff.1 h.2 e (mem_sparseErase he).1⟩
  · refine ⟨sparseRising_insert k v h.1, sparseProper_iff.2 fun e he => ?_⟩
    rcases mem_sparseInsert he with rfl | he
    · assumption
    · exact sparseProper_iff.1 h.2 e he

/-- Changing every value listed keeps the canonical form when no value listed becomes the default. -/
theorem sparseCanonical_map {d : α} {f : α → α} (hf : ∀ v, v ≠ d → f v ≠ d) {m : Sparse α}
    (h : sparseCanonical d m = true) : sparseCanonical d (sparseMap f m) = true := by
  have keys : ∀ n : Sparse α, ∀ e ∈ sparseMap f n, ∃ v, (e.1, v) ∈ n ∧ e.2 = f v := by
    intro n
    induction n with
    | nil => simp [sparseMap]
    | cons x rest ih =>
      obtain ⟨j, w⟩ := x
      intro e he
      rcases List.mem_cons.1 he with rfl | he
      · exact ⟨w, List.mem_cons_self, rfl⟩
      · obtain ⟨v, hv, hx⟩ := ih e he; exact ⟨v, List.mem_cons_of_mem _ hv, hx⟩
  simp only [sparseCanonical, Bool.and_eq_true] at h ⊢
  refine ⟨?_, sparseProper_iff.2 fun e he => ?_⟩
  · have rising : ∀ n : Sparse α, sparseRising n = true → sparseRising (sparseMap f n) = true := by
      intro n
      induction n with
      | nil => simp [sparseMap]
      | cons x rest ih =>
        obtain ⟨j, w⟩ := x
        intro hn
        obtain ⟨hj, hr⟩ := sparseRising_cons.1 hn
        exact sparseRising_cons.2 ⟨fun e he => by
          obtain ⟨v, hv, _⟩ := keys rest e he; exact hj (e.1, v) hv, ih hr⟩
    exact rising m h.1
  · obtain ⟨v, hv, hx⟩ := keys m e he
    rw [hx]; exact hf v (sparseProper_iff.1 h.2 _ hv)

end Sys2Proof.Machine
end

