-- ==== Sys2Proof/Laws/State.lean ====
section
/-! SUPPORT. The state and its updates: what each update leaves as it was, field by field, and what a record
reads as after a write. -/

namespace Sys2Proof.Machine

/-! ## Each update, field by field -/

/-! `setCarousel` -/

@[simp] theorem State.setCarousel_pending (s : State) (k : Nat) (c : Carousel) : (s.setCarousel k c).pending = s.pending := rfl
@[simp] theorem State.setCarousel_handed (s : State) (k : Nat) (c : Carousel) : (s.setCarousel k c).handed = s.handed := rfl
@[simp] theorem State.setCarousel_now (s : State) (k : Nat) (c : Carousel) : (s.setCarousel k c).now = s.now := rfl
@[simp] theorem State.setCarousel_address (s : State) (k : Nat) (c : Carousel) : (s.setCarousel k c).address = s.address := rfl
@[simp] theorem State.setCarousel_serviceHigh (s : State) (k : Nat) (c : Carousel) : (s.setCarousel k c).serviceHigh = s.serviceHigh := rfl
@[simp] theorem State.setCarousel_resetHeld (s : State) (k : Nat) (c : Carousel) : (s.setCarousel k c).resetHeld = s.resetHeld := rfl
@[simp] theorem State.setCarousel_ring (s : State) (k : Nat) (c : Carousel) : (s.setCarousel k c).ring = s.ring := rfl
@[simp] theorem State.setCarousel_command (s : State) (k : Nat) (c : Carousel) : (s.setCarousel k c).command = s.command := rfl
@[simp] theorem State.setCarousel_policy (s : State) (k : Nat) (c : Carousel) : (s.setCarousel k c).policy = s.policy := rfl
@[simp] theorem State.setCarousel_stock (s : State) (k : Nat) (c : Carousel) : (s.setCarousel k c).stock = s.stock := rfl
@[simp] theorem State.setCarousel_planner (s : State) (k : Nat) (c : Carousel) : (s.setCarousel k c).planner = s.planner := rfl
@[simp] theorem State.setCarousel_ports (s : State) (k : Nat) (c : Carousel) : (s.setCarousel k c).ports = s.ports := rfl
@[simp] theorem State.setCarousel_lanes (s : State) (k : Nat) (c : Carousel) : (s.setCarousel k c).lanes = s.lanes := rfl
@[simp] theorem State.setCarousel_audit (s : State) (k : Nat) (c : Carousel) : (s.setCarousel k c).audit = s.audit := rfl

/-! `onCarousel` -/

@[simp] theorem State.onCarousel_pending (s : State) (k : Nat) (f : Carousel → Carousel) : (s.onCarousel k f).pending = s.pending := rfl
@[simp] theorem State.onCarousel_handed (s : State) (k : Nat) (f : Carousel → Carousel) : (s.onCarousel k f).handed = s.handed := rfl
@[simp] theorem State.onCarousel_now (s : State) (k : Nat) (f : Carousel → Carousel) : (s.onCarousel k f).now = s.now := rfl
@[simp] theorem State.onCarousel_address (s : State) (k : Nat) (f : Carousel → Carousel) : (s.onCarousel k f).address = s.address := rfl
@[simp] theorem State.onCarousel_serviceHigh (s : State) (k : Nat) (f : Carousel → Carousel) : (s.onCarousel k f).serviceHigh = s.serviceHigh := rfl
@[simp] theorem State.onCarousel_resetHeld (s : State) (k : Nat) (f : Carousel → Carousel) : (s.onCarousel k f).resetHeld = s.resetHeld := rfl
@[simp] theorem State.onCarousel_ring (s : State) (k : Nat) (f : Carousel → Carousel) : (s.onCarousel k f).ring = s.ring := rfl
@[simp] theorem State.onCarousel_command (s : State) (k : Nat) (f : Carousel → Carousel) : (s.onCarousel k f).command = s.command := rfl
@[simp] theorem State.onCarousel_policy (s : State) (k : Nat) (f : Carousel → Carousel) : (s.onCarousel k f).policy = s.policy := rfl
@[simp] theorem State.onCarousel_stock (s : State) (k : Nat) (f : Carousel → Carousel) : (s.onCarousel k f).stock = s.stock := rfl
@[simp] theorem State.onCarousel_planner (s : State) (k : Nat) (f : Carousel → Carousel) : (s.onCarousel k f).planner = s.planner := rfl
@[simp] theorem State.onCarousel_ports (s : State) (k : Nat) (f : Carousel → Carousel) : (s.onCarousel k f).ports = s.ports := rfl
@[simp] theorem State.onCarousel_lanes (s : State) (k : Nat) (f : Carousel → Carousel) : (s.onCarousel k f).lanes = s.lanes := rfl
@[simp] theorem State.onCarousel_audit (s : State) (k : Nat) (f : Carousel → Carousel) : (s.onCarousel k f).audit = s.audit := rfl

/-! `setPort` -/

@[simp] theorem State.setPort_pending (s : State) (k : Nat) (p : Port) : (s.setPort k p).pending = s.pending := rfl
@[simp] theorem State.setPort_handed (s : State) (k : Nat) (p : Port) : (s.setPort k p).handed = s.handed := rfl
@[simp] theorem State.setPort_now (s : State) (k : Nat) (p : Port) : (s.setPort k p).now = s.now := rfl
@[simp] theorem State.setPort_address (s : State) (k : Nat) (p : Port) : (s.setPort k p).address = s.address := rfl
@[simp] theorem State.setPort_serviceHigh (s : State) (k : Nat) (p : Port) : (s.setPort k p).serviceHigh = s.serviceHigh := rfl
@[simp] theorem State.setPort_resetHeld (s : State) (k : Nat) (p : Port) : (s.setPort k p).resetHeld = s.resetHeld := rfl
@[simp] theorem State.setPort_ring (s : State) (k : Nat) (p : Port) : (s.setPort k p).ring = s.ring := rfl
@[simp] theorem State.setPort_command (s : State) (k : Nat) (p : Port) : (s.setPort k p).command = s.command := rfl
@[simp] theorem State.setPort_policy (s : State) (k : Nat) (p : Port) : (s.setPort k p).policy = s.policy := rfl
@[simp] theorem State.setPort_stock (s : State) (k : Nat) (p : Port) : (s.setPort k p).stock = s.stock := rfl
@[simp] theorem State.setPort_planner (s : State) (k : Nat) (p : Port) : (s.setPort k p).planner = s.planner := rfl
@[simp] theorem State.setPort_motion (s : State) (k : Nat) (p : Port) : (s.setPort k p).motion = s.motion := rfl
@[simp] theorem State.setPort_lanes (s : State) (k : Nat) (p : Port) : (s.setPort k p).lanes = s.lanes := rfl
@[simp] theorem State.setPort_audit (s : State) (k : Nat) (p : Port) : (s.setPort k p).audit = s.audit := rfl

/-! `onPort` -/

@[simp] theorem State.onPort_pending (s : State) (k : Nat) (f : Port → Port) : (s.onPort k f).pending = s.pending := rfl
@[simp] theorem State.onPort_handed (s : State) (k : Nat) (f : Port → Port) : (s.onPort k f).handed = s.handed := rfl
@[simp] theorem State.onPort_now (s : State) (k : Nat) (f : Port → Port) : (s.onPort k f).now = s.now := rfl
@[simp] theorem State.onPort_address (s : State) (k : Nat) (f : Port → Port) : (s.onPort k f).address = s.address := rfl
@[simp] theorem State.onPort_serviceHigh (s : State) (k : Nat) (f : Port → Port) : (s.onPort k f).serviceHigh = s.serviceHigh := rfl
@[simp] theorem State.onPort_resetHeld (s : State) (k : Nat) (f : Port → Port) : (s.onPort k f).resetHeld = s.resetHeld := rfl
@[simp] theorem State.onPort_ring (s : State) (k : Nat) (f : Port → Port) : (s.onPort k f).ring = s.ring := rfl
@[simp] theorem State.onPort_command (s : State) (k : Nat) (f : Port → Port) : (s.onPort k f).command = s.command := rfl
@[simp] theorem State.onPort_policy (s : State) (k : Nat) (f : Port → Port) : (s.onPort k f).policy = s.policy := rfl
@[simp] theorem State.onPort_stock (s : State) (k : Nat) (f : Port → Port) : (s.onPort k f).stock = s.stock := rfl
@[simp] theorem State.onPort_planner (s : State) (k : Nat) (f : Port → Port) : (s.onPort k f).planner = s.planner := rfl
@[simp] theorem State.onPort_motion (s : State) (k : Nat) (f : Port → Port) : (s.onPort k f).motion = s.motion := rfl
@[simp] theorem State.onPort_lanes (s : State) (k : Nat) (f : Port → Port) : (s.onPort k f).lanes = s.lanes := rfl
@[simp] theorem State.onPort_audit (s : State) (k : Nat) (f : Port → Port) : (s.onPort k f).audit = s.audit := rfl

/-! `setLane` -/

@[simp] theorem State.setLane_pending (s : State) (q : Nat) (l : Lane) : (s.setLane q l).pending = s.pending := rfl
@[simp] theorem State.setLane_handed (s : State) (q : Nat) (l : Lane) : (s.setLane q l).handed = s.handed := rfl
@[simp] theorem State.setLane_now (s : State) (q : Nat) (l : Lane) : (s.setLane q l).now = s.now := rfl
@[simp] theorem State.setLane_address (s : State) (q : Nat) (l : Lane) : (s.setLane q l).address = s.address := rfl
@[simp] theorem State.setLane_serviceHigh (s : State) (q : Nat) (l : Lane) : (s.setLane q l).serviceHigh = s.serviceHigh := rfl
@[simp] theorem State.setLane_resetHeld (s : State) (q : Nat) (l : Lane) : (s.setLane q l).resetHeld = s.resetHeld := rfl
@[simp] theorem State.setLane_ring (s : State) (q : Nat) (l : Lane) : (s.setLane q l).ring = s.ring := rfl
@[simp] theorem State.setLane_command (s : State) (q : Nat) (l : Lane) : (s.setLane q l).command = s.command := rfl
@[simp] theorem State.setLane_policy (s : State) (q : Nat) (l : Lane) : (s.setLane q l).policy = s.policy := rfl
@[simp] theorem State.setLane_stock (s : State) (q : Nat) (l : Lane) : (s.setLane q l).stock = s.stock := rfl
@[simp] theorem State.setLane_planner (s : State) (q : Nat) (l : Lane) : (s.setLane q l).planner = s.planner := rfl
@[simp] theorem State.setLane_motion (s : State) (q : Nat) (l : Lane) : (s.setLane q l).motion = s.motion := rfl
@[simp] theorem State.setLane_ports (s : State) (q : Nat) (l : Lane) : (s.setLane q l).ports = s.ports := rfl
@[simp] theorem State.setLane_audit (s : State) (q : Nat) (l : Lane) : (s.setLane q l).audit = s.audit := rfl

/-! `onLane` -/

@[simp] theorem State.onLane_pending (s : State) (q : Nat) (f : Lane → Lane) : (s.onLane q f).pending = s.pending := rfl
@[simp] theorem State.onLane_handed (s : State) (q : Nat) (f : Lane → Lane) : (s.onLane q f).handed = s.handed := rfl
@[simp] theorem State.onLane_now (s : State) (q : Nat) (f : Lane → Lane) : (s.onLane q f).now = s.now := rfl
@[simp] theorem State.onLane_address (s : State) (q : Nat) (f : Lane → Lane) : (s.onLane q f).address = s.address := rfl
@[simp] theorem State.onLane_serviceHigh (s : State) (q : Nat) (f : Lane → Lane) : (s.onLane q f).serviceHigh = s.serviceHigh := rfl
@[simp] theorem State.onLane_resetHeld (s : State) (q : Nat) (f : Lane → Lane) : (s.onLane q f).resetHeld = s.resetHeld := rfl
@[simp] theorem State.onLane_ring (s : State) (q : Nat) (f : Lane → Lane) : (s.onLane q f).ring = s.ring := rfl
@[simp] theorem State.onLane_command (s : State) (q : Nat) (f : Lane → Lane) : (s.onLane q f).command = s.command := rfl
@[simp] theorem State.onLane_policy (s : State) (q : Nat) (f : Lane → Lane) : (s.onLane q f).policy = s.policy := rfl
@[simp] theorem State.onLane_stock (s : State) (q : Nat) (f : Lane → Lane) : (s.onLane q f).stock = s.stock := rfl
@[simp] theorem State.onLane_planner (s : State) (q : Nat) (f : Lane → Lane) : (s.onLane q f).planner = s.planner := rfl
@[simp] theorem State.onLane_motion (s : State) (q : Nat) (f : Lane → Lane) : (s.onLane q f).motion = s.motion := rfl
@[simp] theorem State.onLane_ports (s : State) (q : Nat) (f : Lane → Lane) : (s.onLane q f).ports = s.ports := rfl
@[simp] theorem State.onLane_audit (s : State) (q : Nat) (f : Lane → Lane) : (s.onLane q f).audit = s.audit := rfl

/-! `setAuditRecord` -/

@[simp] theorem State.setAuditRecord_pending (s : State) (k : Nat) (a : AuditRecord) : (s.setAuditRecord k a).pending = s.pending := rfl
@[simp] theorem State.setAuditRecord_handed (s : State) (k : Nat) (a : AuditRecord) : (s.setAuditRecord k a).handed = s.handed := rfl
@[simp] theorem State.setAuditRecord_now (s : State) (k : Nat) (a : AuditRecord) : (s.setAuditRecord k a).now = s.now := rfl
@[simp] theorem State.setAuditRecord_address (s : State) (k : Nat) (a : AuditRecord) : (s.setAuditRecord k a).address = s.address := rfl
@[simp] theorem State.setAuditRecord_serviceHigh (s : State) (k : Nat) (a : AuditRecord) : (s.setAuditRecord k a).serviceHigh = s.serviceHigh := rfl
@[simp] theorem State.setAuditRecord_resetHeld (s : State) (k : Nat) (a : AuditRecord) : (s.setAuditRecord k a).resetHeld = s.resetHeld := rfl
@[simp] theorem State.setAuditRecord_ring (s : State) (k : Nat) (a : AuditRecord) : (s.setAuditRecord k a).ring = s.ring := rfl
@[simp] theorem State.setAuditRecord_command (s : State) (k : Nat) (a : AuditRecord) : (s.setAuditRecord k a).command = s.command := rfl
@[simp] theorem State.setAuditRecord_policy (s : State) (k : Nat) (a : AuditRecord) : (s.setAuditRecord k a).policy = s.policy := rfl
@[simp] theorem State.setAuditRecord_stock (s : State) (k : Nat) (a : AuditRecord) : (s.setAuditRecord k a).stock = s.stock := rfl
@[simp] theorem State.setAuditRecord_planner (s : State) (k : Nat) (a : AuditRecord) : (s.setAuditRecord k a).planner = s.planner := rfl
@[simp] theorem State.setAuditRecord_motion (s : State) (k : Nat) (a : AuditRecord) : (s.setAuditRecord k a).motion = s.motion := rfl
@[simp] theorem State.setAuditRecord_ports (s : State) (k : Nat) (a : AuditRecord) : (s.setAuditRecord k a).ports = s.ports := rfl
@[simp] theorem State.setAuditRecord_lanes (s : State) (k : Nat) (a : AuditRecord) : (s.setAuditRecord k a).lanes = s.lanes := rfl

/-! `onAudit` -/

@[simp] theorem State.onAudit_pending (s : State) (k : Nat) (f : AuditRecord → AuditRecord) : (s.onAudit k f).pending = s.pending := rfl
@[simp] theorem State.onAudit_handed (s : State) (k : Nat) (f : AuditRecord → AuditRecord) : (s.onAudit k f).handed = s.handed := rfl
@[simp] theorem State.onAudit_now (s : State) (k : Nat) (f : AuditRecord → AuditRecord) : (s.onAudit k f).now = s.now := rfl
@[simp] theorem State.onAudit_address (s : State) (k : Nat) (f : AuditRecord → AuditRecord) : (s.onAudit k f).address = s.address := rfl
@[simp] theorem State.onAudit_serviceHigh (s : State) (k : Nat) (f : AuditRecord → AuditRecord) : (s.onAudit k f).serviceHigh = s.serviceHigh := rfl
@[simp] theorem State.onAudit_resetHeld (s : State) (k : Nat) (f : AuditRecord → AuditRecord) : (s.onAudit k f).resetHeld = s.resetHeld := rfl
@[simp] theorem State.onAudit_ring (s : State) (k : Nat) (f : AuditRecord → AuditRecord) : (s.onAudit k f).ring = s.ring := rfl
@[simp] theorem State.onAudit_command (s : State) (k : Nat) (f : AuditRecord → AuditRecord) : (s.onAudit k f).command = s.command := rfl
@[simp] theorem State.onAudit_policy (s : State) (k : Nat) (f : AuditRecord → AuditRecord) : (s.onAudit k f).policy = s.policy := rfl
@[simp] theorem State.onAudit_stock (s : State) (k : Nat) (f : AuditRecord → AuditRecord) : (s.onAudit k f).stock = s.stock := rfl
@[simp] theorem State.onAudit_planner (s : State) (k : Nat) (f : AuditRecord → AuditRecord) : (s.onAudit k f).planner = s.planner := rfl
@[simp] theorem State.onAudit_motion (s : State) (k : Nat) (f : AuditRecord → AuditRecord) : (s.onAudit k f).motion = s.motion := rfl
@[simp] theorem State.onAudit_ports (s : State) (k : Nat) (f : AuditRecord → AuditRecord) : (s.onAudit k f).ports = s.ports := rfl
@[simp] theorem State.onAudit_lanes (s : State) (k : Nat) (f : AuditRecord → AuditRecord) : (s.onAudit k f).lanes = s.lanes := rfl

/-! `setSlot` -/

@[simp] theorem State.setSlot_pending (s : State) (i : Nat) (x : Slot) : (s.setSlot i x).pending = s.pending := rfl
@[simp] theorem State.setSlot_handed (s : State) (i : Nat) (x : Slot) : (s.setSlot i x).handed = s.handed := rfl
@[simp] theorem State.setSlot_now (s : State) (i : Nat) (x : Slot) : (s.setSlot i x).now = s.now := rfl
@[simp] theorem State.setSlot_address (s : State) (i : Nat) (x : Slot) : (s.setSlot i x).address = s.address := rfl
@[simp] theorem State.setSlot_serviceHigh (s : State) (i : Nat) (x : Slot) : (s.setSlot i x).serviceHigh = s.serviceHigh := rfl
@[simp] theorem State.setSlot_resetHeld (s : State) (i : Nat) (x : Slot) : (s.setSlot i x).resetHeld = s.resetHeld := rfl
@[simp] theorem State.setSlot_ring (s : State) (i : Nat) (x : Slot) : (s.setSlot i x).ring = s.ring := rfl
@[simp] theorem State.setSlot_command (s : State) (i : Nat) (x : Slot) : (s.setSlot i x).command = s.command := rfl
@[simp] theorem State.setSlot_policy (s : State) (i : Nat) (x : Slot) : (s.setSlot i x).policy = s.policy := rfl
@[simp] theorem State.setSlot_planner (s : State) (i : Nat) (x : Slot) : (s.setSlot i x).planner = s.planner := rfl
@[simp] theorem State.setSlot_motion (s : State) (i : Nat) (x : Slot) : (s.setSlot i x).motion = s.motion := rfl
@[simp] theorem State.setSlot_ports (s : State) (i : Nat) (x : Slot) : (s.setSlot i x).ports = s.ports := rfl
@[simp] theorem State.setSlot_lanes (s : State) (i : Nat) (x : Slot) : (s.setSlot i x).lanes = s.lanes := rfl
@[simp] theorem State.setSlot_audit (s : State) (i : Nat) (x : Slot) : (s.setSlot i x).audit = s.audit := rfl

/-! `setOrders` -/

@[simp] theorem State.setOrders_pending (s : State) (os : List Order) : (s.setOrders os).pending = s.pending := rfl
@[simp] theorem State.setOrders_handed (s : State) (os : List Order) : (s.setOrders os).handed = s.handed := rfl
@[simp] theorem State.setOrders_now (s : State) (os : List Order) : (s.setOrders os).now = s.now := rfl
@[simp] theorem State.setOrders_address (s : State) (os : List Order) : (s.setOrders os).address = s.address := rfl
@[simp] theorem State.setOrders_serviceHigh (s : State) (os : List Order) : (s.setOrders os).serviceHigh = s.serviceHigh := rfl
@[simp] theorem State.setOrders_resetHeld (s : State) (os : List Order) : (s.setOrders os).resetHeld = s.resetHeld := rfl
@[simp] theorem State.setOrders_ring (s : State) (os : List Order) : (s.setOrders os).ring = s.ring := rfl
@[simp] theorem State.setOrders_command (s : State) (os : List Order) : (s.setOrders os).command = s.command := rfl
@[simp] theorem State.setOrders_policy (s : State) (os : List Order) : (s.setOrders os).policy = s.policy := rfl
@[simp] theorem State.setOrders_stock (s : State) (os : List Order) : (s.setOrders os).stock = s.stock := rfl
@[simp] theorem State.setOrders_motion (s : State) (os : List Order) : (s.setOrders os).motion = s.motion := rfl
@[simp] theorem State.setOrders_ports (s : State) (os : List Order) : (s.setOrders os).ports = s.ports := rfl
@[simp] theorem State.setOrders_lanes (s : State) (os : List Order) : (s.setOrders os).lanes = s.lanes := rfl
@[simp] theorem State.setOrders_audit (s : State) (os : List Order) : (s.setOrders os).audit = s.audit := rfl

/-! `onOrder` -/

@[simp] theorem State.onOrder_pending (s : State) (id : Nat) (f : Order → Order) : (s.onOrder id f).pending = s.pending := rfl
@[simp] theorem State.onOrder_handed (s : State) (id : Nat) (f : Order → Order) : (s.onOrder id f).handed = s.handed := rfl
@[simp] theorem State.onOrder_now (s : State) (id : Nat) (f : Order → Order) : (s.onOrder id f).now = s.now := rfl
@[simp] theorem State.onOrder_address (s : State) (id : Nat) (f : Order → Order) : (s.onOrder id f).address = s.address := rfl
@[simp] theorem State.onOrder_serviceHigh (s : State) (id : Nat) (f : Order → Order) : (s.onOrder id f).serviceHigh = s.serviceHigh := rfl
@[simp] theorem State.onOrder_resetHeld (s : State) (id : Nat) (f : Order → Order) : (s.onOrder id f).resetHeld = s.resetHeld := rfl
@[simp] theorem State.onOrder_ring (s : State) (id : Nat) (f : Order → Order) : (s.onOrder id f).ring = s.ring := rfl
@[simp] theorem State.onOrder_command (s : State) (id : Nat) (f : Order → Order) : (s.onOrder id f).command = s.command := rfl
@[simp] theorem State.onOrder_policy (s : State) (id : Nat) (f : Order → Order) : (s.onOrder id f).policy = s.policy := rfl
@[simp] theorem State.onOrder_stock (s : State) (id : Nat) (f : Order → Order) : (s.onOrder id f).stock = s.stock := rfl
@[simp] theorem State.onOrder_motion (s : State) (id : Nat) (f : Order → Order) : (s.onOrder id f).motion = s.motion := rfl
@[simp] theorem State.onOrder_ports (s : State) (id : Nat) (f : Order → Order) : (s.onOrder id f).ports = s.ports := rfl
@[simp] theorem State.onOrder_lanes (s : State) (id : Nat) (f : Order → Order) : (s.onOrder id f).lanes = s.lanes := rfl
@[simp] theorem State.onOrder_audit (s : State) (id : Nat) (f : Order → Order) : (s.onOrder id f).audit = s.audit := rfl

/-! `onLine` -/

@[simp] theorem State.onLine_pending (s : State) (id n : Nat) (f : Line → Line) : (s.onLine id n f).pending = s.pending := rfl
@[simp] theorem State.onLine_handed (s : State) (id n : Nat) (f : Line → Line) : (s.onLine id n f).handed = s.handed := rfl
@[simp] theorem State.onLine_now (s : State) (id n : Nat) (f : Line → Line) : (s.onLine id n f).now = s.now := rfl
@[simp] theorem State.onLine_address (s : State) (id n : Nat) (f : Line → Line) : (s.onLine id n f).address = s.address := rfl
@[simp] theorem State.onLine_serviceHigh (s : State) (id n : Nat) (f : Line → Line) : (s.onLine id n f).serviceHigh = s.serviceHigh := rfl
@[simp] theorem State.onLine_resetHeld (s : State) (id n : Nat) (f : Line → Line) : (s.onLine id n f).resetHeld = s.resetHeld := rfl
@[simp] theorem State.onLine_ring (s : State) (id n : Nat) (f : Line → Line) : (s.onLine id n f).ring = s.ring := rfl
@[simp] theorem State.onLine_command (s : State) (id n : Nat) (f : Line → Line) : (s.onLine id n f).command = s.command := rfl
@[simp] theorem State.onLine_policy (s : State) (id n : Nat) (f : Line → Line) : (s.onLine id n f).policy = s.policy := rfl
@[simp] theorem State.onLine_stock (s : State) (id n : Nat) (f : Line → Line) : (s.onLine id n f).stock = s.stock := rfl
@[simp] theorem State.onLine_motion (s : State) (id n : Nat) (f : Line → Line) : (s.onLine id n f).motion = s.motion := rfl
@[simp] theorem State.onLine_ports (s : State) (id n : Nat) (f : Line → Line) : (s.onLine id n f).ports = s.ports := rfl
@[simp] theorem State.onLine_lanes (s : State) (id n : Nat) (f : Line → Line) : (s.onLine id n f).lanes = s.lanes := rfl
@[simp] theorem State.onLine_audit (s : State) (id n : Nat) (f : Line → Line) : (s.onLine id n f).audit = s.audit := rfl

/-! `setWaiting` -/

@[simp] theorem State.setWaiting_pending (s : State) (ws : List WaitingChain) : (s.setWaiting ws).pending = s.pending := rfl
@[simp] theorem State.setWaiting_handed (s : State) (ws : List WaitingChain) : (s.setWaiting ws).handed = s.handed := rfl
@[simp] theorem State.setWaiting_now (s : State) (ws : List WaitingChain) : (s.setWaiting ws).now = s.now := rfl
@[simp] theorem State.setWaiting_address (s : State) (ws : List WaitingChain) : (s.setWaiting ws).address = s.address := rfl
@[simp] theorem State.setWaiting_serviceHigh (s : State) (ws : List WaitingChain) : (s.setWaiting ws).serviceHigh = s.serviceHigh := rfl
@[simp] theorem State.setWaiting_resetHeld (s : State) (ws : List WaitingChain) : (s.setWaiting ws).resetHeld = s.resetHeld := rfl
@[simp] theorem State.setWaiting_ring (s : State) (ws : List WaitingChain) : (s.setWaiting ws).ring = s.ring := rfl
@[simp] theorem State.setWaiting_command (s : State) (ws : List WaitingChain) : (s.setWaiting ws).command = s.command := rfl
@[simp] theorem State.setWaiting_policy (s : State) (ws : List WaitingChain) : (s.setWaiting ws).policy = s.policy := rfl
@[simp] theorem State.setWaiting_stock (s : State) (ws : List WaitingChain) : (s.setWaiting ws).stock = s.stock := rfl
@[simp] theorem State.setWaiting_planner (s : State) (ws : List WaitingChain) : (s.setWaiting ws).planner = s.planner := rfl
@[simp] theorem State.setWaiting_motion (s : State) (ws : List WaitingChain) : (s.setWaiting ws).motion = s.motion := rfl
@[simp] theorem State.setWaiting_ports (s : State) (ws : List WaitingChain) : (s.setWaiting ws).ports = s.ports := rfl
@[simp] theorem State.setWaiting_audit (s : State) (ws : List WaitingChain) : (s.setWaiting ws).audit = s.audit := rfl

/-! `setSession` -/

@[simp] theorem State.setSession_pending (s : State) (x : Option Session) : (s.setSession x).pending = s.pending := rfl
@[simp] theorem State.setSession_handed (s : State) (x : Option Session) : (s.setSession x).handed = s.handed := rfl
@[simp] theorem State.setSession_now (s : State) (x : Option Session) : (s.setSession x).now = s.now := rfl
@[simp] theorem State.setSession_address (s : State) (x : Option Session) : (s.setSession x).address = s.address := rfl
@[simp] theorem State.setSession_serviceHigh (s : State) (x : Option Session) : (s.setSession x).serviceHigh = s.serviceHigh := rfl
@[simp] theorem State.setSession_resetHeld (s : State) (x : Option Session) : (s.setSession x).resetHeld = s.resetHeld := rfl
@[simp] theorem State.setSession_ring (s : State) (x : Option Session) : (s.setSession x).ring = s.ring := rfl
@[simp] theorem State.setSession_command (s : State) (x : Option Session) : (s.setSession x).command = s.command := rfl
@[simp] theorem State.setSession_stock (s : State) (x : Option Session) : (s.setSession x).stock = s.stock := rfl
@[simp] theorem State.setSession_planner (s : State) (x : Option Session) : (s.setSession x).planner = s.planner := rfl
@[simp] theorem State.setSession_motion (s : State) (x : Option Session) : (s.setSession x).motion = s.motion := rfl
@[simp] theorem State.setSession_ports (s : State) (x : Option Session) : (s.setSession x).ports = s.ports := rfl
@[simp] theorem State.setSession_lanes (s : State) (x : Option Session) : (s.setSession x).lanes = s.lanes := rfl
@[simp] theorem State.setSession_audit (s : State) (x : Option Session) : (s.setSession x).audit = s.audit := rfl

/-! `setShadowBank` -/

@[simp] theorem State.setShadowBank_pending (s : State) (b : Bank) : (s.setShadowBank b).pending = s.pending := by unfold State.setShadowBank; split <;> rfl
@[simp] theorem State.setShadowBank_handed (s : State) (b : Bank) : (s.setShadowBank b).handed = s.handed := by unfold State.setShadowBank; split <;> rfl
@[simp] theorem State.setShadowBank_now (s : State) (b : Bank) : (s.setShadowBank b).now = s.now := by unfold State.setShadowBank; split <;> rfl
@[simp] theorem State.setShadowBank_address (s : State) (b : Bank) : (s.setShadowBank b).address = s.address := by unfold State.setShadowBank; split <;> rfl
@[simp] theorem State.setShadowBank_serviceHigh (s : State) (b : Bank) : (s.setShadowBank b).serviceHigh = s.serviceHigh := by unfold State.setShadowBank; split <;> rfl
@[simp] theorem State.setShadowBank_resetHeld (s : State) (b : Bank) : (s.setShadowBank b).resetHeld = s.resetHeld := by unfold State.setShadowBank; split <;> rfl
@[simp] theorem State.setShadowBank_ring (s : State) (b : Bank) : (s.setShadowBank b).ring = s.ring := by unfold State.setShadowBank; split <;> rfl
@[simp] theorem State.setShadowBank_command (s : State) (b : Bank) : (s.setShadowBank b).command = s.command := by unfold State.setShadowBank; split <;> rfl
@[simp] theorem State.setShadowBank_stock (s : State) (b : Bank) : (s.setShadowBank b).stock = s.stock := by unfold State.setShadowBank; split <;> rfl
@[simp] theorem State.setShadowBank_planner (s : State) (b : Bank) : (s.setShadowBank b).planner = s.planner := by unfold State.setShadowBank; split <;> rfl
@[simp] theorem State.setShadowBank_motion (s : State) (b : Bank) : (s.setShadowBank b).motion = s.motion := by unfold State.setShadowBank; split <;> rfl
@[simp] theorem State.setShadowBank_ports (s : State) (b : Bank) : (s.setShadowBank b).ports = s.ports := by unfold State.setShadowBank; split <;> rfl
@[simp] theorem State.setShadowBank_lanes (s : State) (b : Bank) : (s.setShadowBank b).lanes = s.lanes := by unfold State.setShadowBank; split <;> rfl
@[simp] theorem State.setShadowBank_audit (s : State) (b : Bank) : (s.setShadowBank b).audit = s.audit := by unfold State.setShadowBank; split <;> rfl

/-! `withCalendar` -/

@[simp] theorem State.withCalendar_pending (s : State) (w y : Nat) : (s.withCalendar w y).pending = s.pending := rfl
@[simp] theorem State.withCalendar_handed (s : State) (w y : Nat) : (s.withCalendar w y).handed = s.handed := rfl
@[simp] theorem State.withCalendar_now (s : State) (w y : Nat) : (s.withCalendar w y).now = s.now := rfl
@[simp] theorem State.withCalendar_address (s : State) (w y : Nat) : (s.withCalendar w y).address = s.address := rfl
@[simp] theorem State.withCalendar_serviceHigh (s : State) (w y : Nat) : (s.withCalendar w y).serviceHigh = s.serviceHigh := rfl
@[simp] theorem State.withCalendar_resetHeld (s : State) (w y : Nat) : (s.withCalendar w y).resetHeld = s.resetHeld := rfl
@[simp] theorem State.withCalendar_ring (s : State) (w y : Nat) : (s.withCalendar w y).ring = s.ring := rfl
@[simp] theorem State.withCalendar_command (s : State) (w y : Nat) : (s.withCalendar w y).command = s.command := rfl
@[simp] theorem State.withCalendar_policy (s : State) (w y : Nat) : (s.withCalendar w y).policy = s.policy := rfl
@[simp] theorem State.withCalendar_planner (s : State) (w y : Nat) : (s.withCalendar w y).planner = s.planner := rfl
@[simp] theorem State.withCalendar_motion (s : State) (w y : Nat) : (s.withCalendar w y).motion = s.motion := rfl
@[simp] theorem State.withCalendar_ports (s : State) (w y : Nat) : (s.withCalendar w y).ports = s.ports := rfl
@[simp] theorem State.withCalendar_lanes (s : State) (w y : Nat) : (s.withCalendar w y).lanes = s.lanes := rfl
@[simp] theorem State.withCalendar_audit (s : State) (w y : Nat) : (s.withCalendar w y).audit = s.audit := rfl

/-! `hand` -/

@[simp] theorem State.hand_pending (s : State) (cs : List Instr) : (s.hand cs).pending = s.pending := rfl
@[simp] theorem State.hand_now (s : State) (cs : List Instr) : (s.hand cs).now = s.now := rfl
@[simp] theorem State.hand_address (s : State) (cs : List Instr) : (s.hand cs).address = s.address := rfl
@[simp] theorem State.hand_serviceHigh (s : State) (cs : List Instr) : (s.hand cs).serviceHigh = s.serviceHigh := rfl
@[simp] theorem State.hand_resetHeld (s : State) (cs : List Instr) : (s.hand cs).resetHeld = s.resetHeld := rfl
@[simp] theorem State.hand_ring (s : State) (cs : List Instr) : (s.hand cs).ring = s.ring := rfl
@[simp] theorem State.hand_command (s : State) (cs : List Instr) : (s.hand cs).command = s.command := rfl
@[simp] theorem State.hand_policy (s : State) (cs : List Instr) : (s.hand cs).policy = s.policy := rfl
@[simp] theorem State.hand_stock (s : State) (cs : List Instr) : (s.hand cs).stock = s.stock := rfl
@[simp] theorem State.hand_planner (s : State) (cs : List Instr) : (s.hand cs).planner = s.planner := rfl
@[simp] theorem State.hand_motion (s : State) (cs : List Instr) : (s.hand cs).motion = s.motion := rfl
@[simp] theorem State.hand_ports (s : State) (cs : List Instr) : (s.hand cs).ports = s.ports := rfl
@[simp] theorem State.hand_lanes (s : State) (cs : List Instr) : (s.hand cs).lanes = s.lanes := rfl
@[simp] theorem State.hand_audit (s : State) (cs : List Instr) : (s.hand cs).audit = s.audit := rfl

/-! `handFirst` -/

@[simp] theorem State.handFirst_pending (s : State) (cs : List Instr) : (s.handFirst cs).pending = s.pending := rfl
@[simp] theorem State.handFirst_now (s : State) (cs : List Instr) : (s.handFirst cs).now = s.now := rfl
@[simp] theorem State.handFirst_address (s : State) (cs : List Instr) : (s.handFirst cs).address = s.address := rfl
@[simp] theorem State.handFirst_serviceHigh (s : State) (cs : List Instr) : (s.handFirst cs).serviceHigh = s.serviceHigh := rfl
@[simp] theorem State.handFirst_resetHeld (s : State) (cs : List Instr) : (s.handFirst cs).resetHeld = s.resetHeld := rfl
@[simp] theorem State.handFirst_ring (s : State) (cs : List Instr) : (s.handFirst cs).ring = s.ring := rfl
@[simp] theorem State.handFirst_command (s : State) (cs : List Instr) : (s.handFirst cs).command = s.command := rfl
@[simp] theorem State.handFirst_policy (s : State) (cs : List Instr) : (s.handFirst cs).policy = s.policy := rfl
@[simp] theorem State.handFirst_stock (s : State) (cs : List Instr) : (s.handFirst cs).stock = s.stock := rfl
@[simp] theorem State.handFirst_planner (s : State) (cs : List Instr) : (s.handFirst cs).planner = s.planner := rfl
@[simp] theorem State.handFirst_motion (s : State) (cs : List Instr) : (s.handFirst cs).motion = s.motion := rfl
@[simp] theorem State.handFirst_ports (s : State) (cs : List Instr) : (s.handFirst cs).ports = s.ports := rfl
@[simp] theorem State.handFirst_lanes (s : State) (cs : List Instr) : (s.handFirst cs).lanes = s.lanes := rfl
@[simp] theorem State.handFirst_audit (s : State) (cs : List Instr) : (s.handFirst cs).audit = s.audit := rfl

/-! `take` -/

@[simp] theorem State.take_pending (s : State) (c : Instr) : (s.take c).pending = s.pending := rfl
@[simp] theorem State.take_now (s : State) (c : Instr) : (s.take c).now = s.now := rfl
@[simp] theorem State.take_address (s : State) (c : Instr) : (s.take c).address = s.address := rfl
@[simp] theorem State.take_serviceHigh (s : State) (c : Instr) : (s.take c).serviceHigh = s.serviceHigh := rfl
@[simp] theorem State.take_resetHeld (s : State) (c : Instr) : (s.take c).resetHeld = s.resetHeld := rfl
@[simp] theorem State.take_ring (s : State) (c : Instr) : (s.take c).ring = s.ring := rfl
@[simp] theorem State.take_command (s : State) (c : Instr) : (s.take c).command = s.command := rfl
@[simp] theorem State.take_policy (s : State) (c : Instr) : (s.take c).policy = s.policy := rfl
@[simp] theorem State.take_stock (s : State) (c : Instr) : (s.take c).stock = s.stock := rfl
@[simp] theorem State.take_planner (s : State) (c : Instr) : (s.take c).planner = s.planner := rfl
@[simp] theorem State.take_motion (s : State) (c : Instr) : (s.take c).motion = s.motion := rfl
@[simp] theorem State.take_ports (s : State) (c : Instr) : (s.take c).ports = s.ports := rfl
@[simp] theorem State.take_lanes (s : State) (c : Instr) : (s.take c).lanes = s.lanes := rfl
@[simp] theorem State.take_audit (s : State) (c : Instr) : (s.take c).audit = s.audit := rfl

/-! `count` -/

@[simp] theorem State.count_pending (s : State) (f : Counters → Counters) : (s.count f).pending = s.pending := rfl
@[simp] theorem State.count_handed (s : State) (f : Counters → Counters) : (s.count f).handed = s.handed := rfl
@[simp] theorem State.count_now (s : State) (f : Counters → Counters) : (s.count f).now = s.now := rfl
@[simp] theorem State.count_address (s : State) (f : Counters → Counters) : (s.count f).address = s.address := rfl
@[simp] theorem State.count_serviceHigh (s : State) (f : Counters → Counters) : (s.count f).serviceHigh = s.serviceHigh := rfl
@[simp] theorem State.count_resetHeld (s : State) (f : Counters → Counters) : (s.count f).resetHeld = s.resetHeld := rfl
@[simp] theorem State.count_command (s : State) (f : Counters → Counters) : (s.count f).command = s.command := rfl
@[simp] theorem State.count_policy (s : State) (f : Counters → Counters) : (s.count f).policy = s.policy := rfl
@[simp] theorem State.count_stock (s : State) (f : Counters → Counters) : (s.count f).stock = s.stock := rfl
@[simp] theorem State.count_planner (s : State) (f : Counters → Counters) : (s.count f).planner = s.planner := rfl
@[simp] theorem State.count_motion (s : State) (f : Counters → Counters) : (s.count f).motion = s.motion := rfl
@[simp] theorem State.count_ports (s : State) (f : Counters → Counters) : (s.count f).ports = s.ports := rfl
@[simp] theorem State.count_lanes (s : State) (f : Counters → Counters) : (s.count f).lanes = s.lanes := rfl
@[simp] theorem State.count_audit (s : State) (f : Counters → Counters) : (s.count f).audit = s.audit := rfl

/-! `placeReply` -/

@[simp] theorem State.placeReply_pending (s : State) (d n : Nat) (st : Status) (x : List Byte) : (s.placeReply d n st x).pending = s.pending := rfl
@[simp] theorem State.placeReply_handed (s : State) (d n : Nat) (st : Status) (x : List Byte) : (s.placeReply d n st x).handed = s.handed := rfl
@[simp] theorem State.placeReply_now (s : State) (d n : Nat) (st : Status) (x : List Byte) : (s.placeReply d n st x).now = s.now := rfl
@[simp] theorem State.placeReply_address (s : State) (d n : Nat) (st : Status) (x : List Byte) : (s.placeReply d n st x).address = s.address := rfl
@[simp] theorem State.placeReply_serviceHigh (s : State) (d n : Nat) (st : Status) (x : List Byte) : (s.placeReply d n st x).serviceHigh = s.serviceHigh := rfl
@[simp] theorem State.placeReply_resetHeld (s : State) (d n : Nat) (st : Status) (x : List Byte) : (s.placeReply d n st x).resetHeld = s.resetHeld := rfl
@[simp] theorem State.placeReply_command (s : State) (d n : Nat) (st : Status) (x : List Byte) : (s.placeReply d n st x).command = s.command := rfl
@[simp] theorem State.placeReply_policy (s : State) (d n : Nat) (st : Status) (x : List Byte) : (s.placeReply d n st x).policy = s.policy := rfl
@[simp] theorem State.placeReply_stock (s : State) (d n : Nat) (st : Status) (x : List Byte) : (s.placeReply d n st x).stock = s.stock := rfl
@[simp] theorem State.placeReply_planner (s : State) (d n : Nat) (st : Status) (x : List Byte) : (s.placeReply d n st x).planner = s.planner := rfl
@[simp] theorem State.placeReply_motion (s : State) (d n : Nat) (st : Status) (x : List Byte) : (s.placeReply d n st x).motion = s.motion := rfl
@[simp] theorem State.placeReply_ports (s : State) (d n : Nat) (st : Status) (x : List Byte) : (s.placeReply d n st x).ports = s.ports := rfl
@[simp] theorem State.placeReply_lanes (s : State) (d n : Nat) (st : Status) (x : List Byte) : (s.placeReply d n st x).lanes = s.lanes := rfl
@[simp] theorem State.placeReply_audit (s : State) (d n : Nat) (st : Status) (x : List Byte) : (s.placeReply d n st x).audit = s.audit := rfl

/-! `placeNotice` -/

@[simp] theorem State.placeNotice_pending (s : State) (n : Notice) : (s.placeNotice n).pending = s.pending := rfl
@[simp] theorem State.placeNotice_handed (s : State) (n : Notice) : (s.placeNotice n).handed = s.handed := rfl
@[simp] theorem State.placeNotice_now (s : State) (n : Notice) : (s.placeNotice n).now = s.now := rfl
@[simp] theorem State.placeNotice_address (s : State) (n : Notice) : (s.placeNotice n).address = s.address := rfl
@[simp] theorem State.placeNotice_serviceHigh (s : State) (n : Notice) : (s.placeNotice n).serviceHigh = s.serviceHigh := rfl
@[simp] theorem State.placeNotice_resetHeld (s : State) (n : Notice) : (s.placeNotice n).resetHeld = s.resetHeld := rfl
@[simp] theorem State.placeNotice_policy (s : State) (n : Notice) : (s.placeNotice n).policy = s.policy := rfl
@[simp] theorem State.placeNotice_stock (s : State) (n : Notice) : (s.placeNotice n).stock = s.stock := rfl
@[simp] theorem State.placeNotice_planner (s : State) (n : Notice) : (s.placeNotice n).planner = s.planner := rfl
@[simp] theorem State.placeNotice_motion (s : State) (n : Notice) : (s.placeNotice n).motion = s.motion := rfl
@[simp] theorem State.placeNotice_ports (s : State) (n : Notice) : (s.placeNotice n).ports = s.ports := rfl
@[simp] theorem State.placeNotice_lanes (s : State) (n : Notice) : (s.placeNotice n).lanes = s.lanes := rfl
@[simp] theorem State.placeNotice_audit (s : State) (n : Notice) : (s.placeNotice n).audit = s.audit := rfl

/-! `loseNotice` -/

@[simp] theorem State.loseNotice_pending (s : State) : s.loseNotice.pending = s.pending := rfl
@[simp] theorem State.loseNotice_handed (s : State) : s.loseNotice.handed = s.handed := rfl
@[simp] theorem State.loseNotice_now (s : State) : s.loseNotice.now = s.now := rfl
@[simp] theorem State.loseNotice_address (s : State) : s.loseNotice.address = s.address := rfl
@[simp] theorem State.loseNotice_serviceHigh (s : State) : s.loseNotice.serviceHigh = s.serviceHigh := rfl
@[simp] theorem State.loseNotice_resetHeld (s : State) : s.loseNotice.resetHeld = s.resetHeld := rfl
@[simp] theorem State.loseNotice_ring (s : State) : s.loseNotice.ring = s.ring := rfl
@[simp] theorem State.loseNotice_policy (s : State) : s.loseNotice.policy = s.policy := rfl
@[simp] theorem State.loseNotice_stock (s : State) : s.loseNotice.stock = s.stock := rfl
@[simp] theorem State.loseNotice_planner (s : State) : s.loseNotice.planner = s.planner := rfl
@[simp] theorem State.loseNotice_motion (s : State) : s.loseNotice.motion = s.motion := rfl
@[simp] theorem State.loseNotice_ports (s : State) : s.loseNotice.ports = s.ports := rfl
@[simp] theorem State.loseNotice_lanes (s : State) : s.loseNotice.lanes = s.lanes := rfl
@[simp] theorem State.loseNotice_audit (s : State) : s.loseNotice.audit = s.audit := rfl

/-! `notify` -/

@[simp] theorem State.notify_pending (s : State) (n : Notice) : (s.notify n).pending = s.pending := by unfold State.notify; (repeat' split) <;> rfl
@[simp] theorem State.notify_handed (s : State) (n : Notice) : (s.notify n).handed = s.handed := by unfold State.notify; (repeat' split) <;> rfl
@[simp] theorem State.notify_now (s : State) (n : Notice) : (s.notify n).now = s.now := by unfold State.notify; (repeat' split) <;> rfl
@[simp] theorem State.notify_address (s : State) (n : Notice) : (s.notify n).address = s.address := by unfold State.notify; (repeat' split) <;> rfl
@[simp] theorem State.notify_serviceHigh (s : State) (n : Notice) : (s.notify n).serviceHigh = s.serviceHigh := by unfold State.notify; (repeat' split) <;> rfl
@[simp] theorem State.notify_resetHeld (s : State) (n : Notice) : (s.notify n).resetHeld = s.resetHeld := by unfold State.notify; (repeat' split) <;> rfl
@[simp] theorem State.notify_policy (s : State) (n : Notice) : (s.notify n).policy = s.policy := by unfold State.notify; (repeat' split) <;> rfl
@[simp] theorem State.notify_stock (s : State) (n : Notice) : (s.notify n).stock = s.stock := by unfold State.notify; (repeat' split) <;> rfl
@[simp] theorem State.notify_planner (s : State) (n : Notice) : (s.notify n).planner = s.planner := by unfold State.notify; (repeat' split) <;> rfl
@[simp] theorem State.notify_motion (s : State) (n : Notice) : (s.notify n).motion = s.motion := by unfold State.notify; (repeat' split) <;> rfl
@[simp] theorem State.notify_ports (s : State) (n : Notice) : (s.notify n).ports = s.ports := by unfold State.notify; (repeat' split) <;> rfl
@[simp] theorem State.notify_lanes (s : State) (n : Notice) : (s.notify n).lanes = s.lanes := by unfold State.notify; (repeat' split) <;> rfl
@[simp] theorem State.notify_audit (s : State) (n : Notice) : (s.notify n).audit = s.audit := by unfold State.notify; (repeat' split) <;> rfl

/-! `queueField` -/

@[simp] theorem State.queueField_pending (s : State) (x : FieldTarget) (c : FieldCommand) : (s.queueField x c).pending = s.pending := by unfold State.queueField; split <;> rfl
@[simp] theorem State.queueField_handed (s : State) (x : FieldTarget) (c : FieldCommand) : (s.queueField x c).handed = s.handed := by unfold State.queueField; split <;> rfl
@[simp] theorem State.queueField_now (s : State) (x : FieldTarget) (c : FieldCommand) : (s.queueField x c).now = s.now := by unfold State.queueField; split <;> rfl
@[simp] theorem State.queueField_address (s : State) (x : FieldTarget) (c : FieldCommand) : (s.queueField x c).address = s.address := by unfold State.queueField; split <;> rfl
@[simp] theorem State.queueField_serviceHigh (s : State) (x : FieldTarget) (c : FieldCommand) : (s.queueField x c).serviceHigh = s.serviceHigh := by unfold State.queueField; split <;> rfl
@[simp] theorem State.queueField_resetHeld (s : State) (x : FieldTarget) (c : FieldCommand) : (s.queueField x c).resetHeld = s.resetHeld := by unfold State.queueField; split <;> rfl
@[simp] theorem State.queueField_command (s : State) (x : FieldTarget) (c : FieldCommand) : (s.queueField x c).command = s.command := by unfold State.queueField; split <;> rfl
@[simp] theorem State.queueField_policy (s : State) (x : FieldTarget) (c : FieldCommand) : (s.queueField x c).policy = s.policy := by unfold State.queueField; split <;> rfl
@[simp] theorem State.queueField_stock (s : State) (x : FieldTarget) (c : FieldCommand) : (s.queueField x c).stock = s.stock := by unfold State.queueField; split <;> rfl
@[simp] theorem State.queueField_planner (s : State) (x : FieldTarget) (c : FieldCommand) : (s.queueField x c).planner = s.planner := by unfold State.queueField; split <;> rfl
@[simp] theorem State.queueField_motion (s : State) (x : FieldTarget) (c : FieldCommand) : (s.queueField x c).motion = s.motion := by unfold State.queueField; split <;> rfl
@[simp] theorem State.queueField_ports (s : State) (x : FieldTarget) (c : FieldCommand) : (s.queueField x c).ports = s.ports := by unfold State.queueField; split <;> rfl
@[simp] theorem State.queueField_lanes (s : State) (x : FieldTarget) (c : FieldCommand) : (s.queueField x c).lanes = s.lanes := by unfold State.queueField; split <;> rfl
@[simp] theorem State.queueField_audit (s : State) (x : FieldTarget) (c : FieldCommand) : (s.queueField x c).audit = s.audit := by unfold State.queueField; split <;> rfl

/-! `withdrawField` -/

@[simp] theorem State.withdrawField_pending (s : State) (x : FieldTarget) : (s.withdrawField x).pending = s.pending := rfl
@[simp] theorem State.withdrawField_handed (s : State) (x : FieldTarget) : (s.withdrawField x).handed = s.handed := rfl
@[simp] theorem State.withdrawField_now (s : State) (x : FieldTarget) : (s.withdrawField x).now = s.now := rfl
@[simp] theorem State.withdrawField_address (s : State) (x : FieldTarget) : (s.withdrawField x).address = s.address := rfl
@[simp] theorem State.withdrawField_serviceHigh (s : State) (x : FieldTarget) : (s.withdrawField x).serviceHigh = s.serviceHigh := rfl
@[simp] theorem State.withdrawField_resetHeld (s : State) (x : FieldTarget) : (s.withdrawField x).resetHeld = s.resetHeld := rfl
@[simp] theorem State.withdrawField_command (s : State) (x : FieldTarget) : (s.withdrawField x).command = s.command := rfl
@[simp] theorem State.withdrawField_policy (s : State) (x : FieldTarget) : (s.withdrawField x).policy = s.policy := rfl
@[simp] theorem State.withdrawField_stock (s : State) (x : FieldTarget) : (s.withdrawField x).stock = s.stock := rfl
@[simp] theorem State.withdrawField_planner (s : State) (x : FieldTarget) : (s.withdrawField x).planner = s.planner := rfl
@[simp] theorem State.withdrawField_motion (s : State) (x : FieldTarget) : (s.withdrawField x).motion = s.motion := rfl
@[simp] theorem State.withdrawField_ports (s : State) (x : FieldTarget) : (s.withdrawField x).ports = s.ports := rfl
@[simp] theorem State.withdrawField_lanes (s : State) (x : FieldTarget) : (s.withdrawField x).lanes = s.lanes := rfl
@[simp] theorem State.withdrawField_audit (s : State) (x : FieldTarget) : (s.withdrawField x).audit = s.audit := rfl

/-! `setMessage` -/

@[simp] theorem State.setMessage_pending (s : State) (k : Nat) (m : Message) : (s.setMessage k m).pending = s.pending := rfl
@[simp] theorem State.setMessage_handed (s : State) (k : Nat) (m : Message) : (s.setMessage k m).handed = s.handed := rfl
@[simp] theorem State.setMessage_now (s : State) (k : Nat) (m : Message) : (s.setMessage k m).now = s.now := rfl
@[simp] theorem State.setMessage_address (s : State) (k : Nat) (m : Message) : (s.setMessage k m).address = s.address := rfl
@[simp] theorem State.setMessage_serviceHigh (s : State) (k : Nat) (m : Message) : (s.setMessage k m).serviceHigh = s.serviceHigh := rfl
@[simp] theorem State.setMessage_resetHeld (s : State) (k : Nat) (m : Message) : (s.setMessage k m).resetHeld = s.resetHeld := rfl
@[simp] theorem State.setMessage_ring (s : State) (k : Nat) (m : Message) : (s.setMessage k m).ring = s.ring := rfl
@[simp] theorem State.setMessage_command (s : State) (k : Nat) (m : Message) : (s.setMessage k m).command = s.command := rfl
@[simp] theorem State.setMessage_policy (s : State) (k : Nat) (m : Message) : (s.setMessage k m).policy = s.policy := rfl
@[simp] theorem State.setMessage_stock (s : State) (k : Nat) (m : Message) : (s.setMessage k m).stock = s.stock := rfl
@[simp] theorem State.setMessage_planner (s : State) (k : Nat) (m : Message) : (s.setMessage k m).planner = s.planner := rfl
@[simp] theorem State.setMessage_motion (s : State) (k : Nat) (m : Message) : (s.setMessage k m).motion = s.motion := rfl
@[simp] theorem State.setMessage_lanes (s : State) (k : Nat) (m : Message) : (s.setMessage k m).lanes = s.lanes := rfl
@[simp] theorem State.setMessage_audit (s : State) (k : Nat) (m : Message) : (s.setMessage k m).audit = s.audit := rfl

/-! `darken` -/

@[simp] theorem State.darken_pending (s : State) (k : Nat) (m : Message) : (s.darken k m).pending = s.pending := rfl
@[simp] theorem State.darken_handed (s : State) (k : Nat) (m : Message) : (s.darken k m).handed = s.handed := rfl
@[simp] theorem State.darken_now (s : State) (k : Nat) (m : Message) : (s.darken k m).now = s.now := rfl
@[simp] theorem State.darken_address (s : State) (k : Nat) (m : Message) : (s.darken k m).address = s.address := rfl
@[simp] theorem State.darken_serviceHigh (s : State) (k : Nat) (m : Message) : (s.darken k m).serviceHigh = s.serviceHigh := rfl
@[simp] theorem State.darken_resetHeld (s : State) (k : Nat) (m : Message) : (s.darken k m).resetHeld = s.resetHeld := rfl
@[simp] theorem State.darken_ring (s : State) (k : Nat) (m : Message) : (s.darken k m).ring = s.ring := rfl
@[simp] theorem State.darken_command (s : State) (k : Nat) (m : Message) : (s.darken k m).command = s.command := rfl
@[simp] theorem State.darken_policy (s : State) (k : Nat) (m : Message) : (s.darken k m).policy = s.policy := rfl
@[simp] theorem State.darken_stock (s : State) (k : Nat) (m : Message) : (s.darken k m).stock = s.stock := rfl
@[simp] theorem State.darken_planner (s : State) (k : Nat) (m : Message) : (s.darken k m).planner = s.planner := rfl
@[simp] theorem State.darken_motion (s : State) (k : Nat) (m : Message) : (s.darken k m).motion = s.motion := rfl
@[simp] theorem State.darken_lanes (s : State) (k : Nat) (m : Message) : (s.darken k m).lanes = s.lanes := rfl
@[simp] theorem State.darken_audit (s : State) (k : Nat) (m : Message) : (s.darken k m).audit = s.audit := rfl

/-! `rebuild` -/

@[simp] theorem State.rebuild_pending (s : State) (k : Nat) : (s.rebuild k).pending = s.pending := by unfold State.rebuild; split <;> rfl
@[simp] theorem State.rebuild_handed (s : State) (k : Nat) : (s.rebuild k).handed = s.handed := by unfold State.rebuild; split <;> rfl
@[simp] theorem State.rebuild_now (s : State) (k : Nat) : (s.rebuild k).now = s.now := by unfold State.rebuild; split <;> rfl
@[simp] theorem State.rebuild_address (s : State) (k : Nat) : (s.rebuild k).address = s.address := by unfold State.rebuild; split <;> rfl
@[simp] theorem State.rebuild_serviceHigh (s : State) (k : Nat) : (s.rebuild k).serviceHigh = s.serviceHigh := by unfold State.rebuild; split <;> rfl
@[simp] theorem State.rebuild_resetHeld (s : State) (k : Nat) : (s.rebuild k).resetHeld = s.resetHeld := by unfold State.rebuild; split <;> rfl
@[simp] theorem State.rebuild_ring (s : State) (k : Nat) : (s.rebuild k).ring = s.ring := by unfold State.rebuild; split <;> rfl
@[simp] theorem State.rebuild_command (s : State) (k : Nat) : (s.rebuild k).command = s.command := by unfold State.rebuild; split <;> rfl
@[simp] theorem State.rebuild_policy (s : State) (k : Nat) : (s.rebuild k).policy = s.policy := by unfold State.rebuild; split <;> rfl
@[simp] theorem State.rebuild_stock (s : State) (k : Nat) : (s.rebuild k).stock = s.stock := by unfold State.rebuild; split <;> rfl
@[simp] theorem State.rebuild_planner (s : State) (k : Nat) : (s.rebuild k).planner = s.planner := by unfold State.rebuild; split <;> rfl
@[simp] theorem State.rebuild_motion (s : State) (k : Nat) : (s.rebuild k).motion = s.motion := by unfold State.rebuild; split <;> rfl
@[simp] theorem State.rebuild_lanes (s : State) (k : Nat) : (s.rebuild k).lanes = s.lanes := by unfold State.rebuild; split <;> rfl
@[simp] theorem State.rebuild_audit (s : State) (k : Nat) : (s.rebuild k).audit = s.audit := by unfold State.rebuild; split <;> rfl

/-! `writeSlot` -/

@[simp] theorem State.writeSlot_pending (s : State) (i : Nat) (x : Slot) : (s.writeSlot i x).pending = s.pending := by unfold State.writeSlot; split <;> simp
@[simp] theorem State.writeSlot_handed (s : State) (i : Nat) (x : Slot) : (s.writeSlot i x).handed = s.handed := by unfold State.writeSlot; split <;> simp
@[simp] theorem State.writeSlot_now (s : State) (i : Nat) (x : Slot) : (s.writeSlot i x).now = s.now := by unfold State.writeSlot; split <;> simp
@[simp] theorem State.writeSlot_address (s : State) (i : Nat) (x : Slot) : (s.writeSlot i x).address = s.address := by unfold State.writeSlot; split <;> simp
@[simp] theorem State.writeSlot_serviceHigh (s : State) (i : Nat) (x : Slot) : (s.writeSlot i x).serviceHigh = s.serviceHigh := by unfold State.writeSlot; split <;> simp
@[simp] theorem State.writeSlot_resetHeld (s : State) (i : Nat) (x : Slot) : (s.writeSlot i x).resetHeld = s.resetHeld := by unfold State.writeSlot; split <;> simp
@[simp] theorem State.writeSlot_ring (s : State) (i : Nat) (x : Slot) : (s.writeSlot i x).ring = s.ring := by unfold State.writeSlot; split <;> simp
@[simp] theorem State.writeSlot_command (s : State) (i : Nat) (x : Slot) : (s.writeSlot i x).command = s.command := by unfold State.writeSlot; split <;> simp
@[simp] theorem State.writeSlot_policy (s : State) (i : Nat) (x : Slot) : (s.writeSlot i x).policy = s.policy := by unfold State.writeSlot; split <;> simp
@[simp] theorem State.writeSlot_planner (s : State) (i : Nat) (x : Slot) : (s.writeSlot i x).planner = s.planner := by unfold State.writeSlot; split <;> simp
@[simp] theorem State.writeSlot_motion (s : State) (i : Nat) (x : Slot) : (s.writeSlot i x).motion = s.motion := by unfold State.writeSlot; split <;> simp
@[simp] theorem State.writeSlot_lanes (s : State) (i : Nat) (x : Slot) : (s.writeSlot i x).lanes = s.lanes := by unfold State.writeSlot; split <;> simp
@[simp] theorem State.writeSlot_audit (s : State) (i : Nat) (x : Slot) : (s.writeSlot i x).audit = s.audit := by unfold State.writeSlot; split <;> simp

/-! `recontent` -/

@[simp] theorem State.recontent_pending (s : State) (i : Nat) (x : Content) : (s.recontent i x).pending = s.pending := by simp [State.recontent]
@[simp] theorem State.recontent_handed (s : State) (i : Nat) (x : Content) : (s.recontent i x).handed = s.handed := by simp [State.recontent]
@[simp] theorem State.recontent_now (s : State) (i : Nat) (x : Content) : (s.recontent i x).now = s.now := by simp [State.recontent]
@[simp] theorem State.recontent_address (s : State) (i : Nat) (x : Content) : (s.recontent i x).address = s.address := by simp [State.recontent]
@[simp] theorem State.recontent_serviceHigh (s : State) (i : Nat) (x : Content) : (s.recontent i x).serviceHigh = s.serviceHigh := by simp [State.recontent]
@[simp] theorem State.recontent_resetHeld (s : State) (i : Nat) (x : Content) : (s.recontent i x).resetHeld = s.resetHeld := by simp [State.recontent]
@[simp] theorem State.recontent_ring (s : State) (i : Nat) (x : Content) : (s.recontent i x).ring = s.ring := by simp [State.recontent]
@[simp] theorem State.recontent_command (s : State) (i : Nat) (x : Content) : (s.recontent i x).command = s.command := by simp [State.recontent]
@[simp] theorem State.recontent_policy (s : State) (i : Nat) (x : Content) : (s.recontent i x).policy = s.policy := by simp [State.recontent]
@[simp] theorem State.recontent_planner (s : State) (i : Nat) (x : Content) : (s.recontent i x).planner = s.planner := by simp [State.recontent]
@[simp] theorem State.recontent_motion (s : State) (i : Nat) (x : Content) : (s.recontent i x).motion = s.motion := by simp [State.recontent]
@[simp] theorem State.recontent_lanes (s : State) (i : Nat) (x : Content) : (s.recontent i x).lanes = s.lanes := by simp [State.recontent]
@[simp] theorem State.recontent_audit (s : State) (i : Nat) (x : Content) : (s.recontent i x).audit = s.audit := by simp [State.recontent]

/-! `refresh` -/

@[simp] theorem State.refresh_pending (s : State) (i : Nat) (x : Content) : (s.refresh i x).pending = s.pending := by simp [State.refresh]
@[simp] theorem State.refresh_handed (s : State) (i : Nat) (x : Content) : (s.refresh i x).handed = s.handed := by simp [State.refresh]
@[simp] theorem State.refresh_now (s : State) (i : Nat) (x : Content) : (s.refresh i x).now = s.now := by simp [State.refresh]
@[simp] theorem State.refresh_address (s : State) (i : Nat) (x : Content) : (s.refresh i x).address = s.address := by simp [State.refresh]
@[simp] theorem State.refresh_serviceHigh (s : State) (i : Nat) (x : Content) : (s.refresh i x).serviceHigh = s.serviceHigh := by simp [State.refresh]
@[simp] theorem State.refresh_resetHeld (s : State) (i : Nat) (x : Content) : (s.refresh i x).resetHeld = s.resetHeld := by simp [State.refresh]
@[simp] theorem State.refresh_ring (s : State) (i : Nat) (x : Content) : (s.refresh i x).ring = s.ring := by simp [State.refresh]
@[simp] theorem State.refresh_command (s : State) (i : Nat) (x : Content) : (s.refresh i x).command = s.command := by simp [State.refresh]
@[simp] theorem State.refresh_policy (s : State) (i : Nat) (x : Content) : (s.refresh i x).policy = s.policy := by simp [State.refresh]
@[simp] theorem State.refresh_planner (s : State) (i : Nat) (x : Content) : (s.refresh i x).planner = s.planner := by simp [State.refresh]
@[simp] theorem State.refresh_motion (s : State) (i : Nat) (x : Content) : (s.refresh i x).motion = s.motion := by simp [State.refresh]
@[simp] theorem State.refresh_lanes (s : State) (i : Nat) (x : Content) : (s.refresh i x).lanes = s.lanes := by simp [State.refresh]
@[simp] theorem State.refresh_audit (s : State) (i : Nat) (x : Content) : (s.refresh i x).audit = s.audit := by simp [State.refresh]

/-! ## Records after an update of another table -/

@[simp] theorem State.setCarousel_port (s : State) (k : Nat) (c : Carousel) (j : Nat) : (s.setCarousel k c).port j = s.port j := rfl
@[simp] theorem State.setCarousel_lane (s : State) (k : Nat) (c : Carousel) (j : Nat) : (s.setCarousel k c).lane j = s.lane j := rfl
@[simp] theorem State.setCarousel_auditRecord (s : State) (k : Nat) (c : Carousel) (j : Nat) : (s.setCarousel k c).auditRecord j = s.auditRecord j := rfl
@[simp] theorem State.setCarousel_slot (s : State) (k : Nat) (c : Carousel) (j : Nat) : (s.setCarousel k c).slot j = s.slot j := rfl
@[simp] theorem State.setCarousel_findOrder (s : State) (k : Nat) (c : Carousel) (j : Nat) : (s.setCarousel k c).findOrder j = s.findOrder j := rfl
@[simp] theorem State.setCarousel_activeBank (s : State) (k : Nat) (c : Carousel) : (s.setCarousel k c).activeBank = s.activeBank := rfl
@[simp] theorem State.onCarousel_port (s : State) (k : Nat) (f : Carousel → Carousel) (j : Nat) : (s.onCarousel k f).port j = s.port j := rfl
@[simp] theorem State.onCarousel_lane (s : State) (k : Nat) (f : Carousel → Carousel) (j : Nat) : (s.onCarousel k f).lane j = s.lane j := rfl
@[simp] theorem State.onCarousel_auditRecord (s : State) (k : Nat) (f : Carousel → Carousel) (j : Nat) : (s.onCarousel k f).auditRecord j = s.auditRecord j := rfl
@[simp] theorem State.onCarousel_slot (s : State) (k : Nat) (f : Carousel → Carousel) (j : Nat) : (s.onCarousel k f).slot j = s.slot j := rfl
@[simp] theorem State.onCarousel_findOrder (s : State) (k : Nat) (f : Carousel → Carousel) (j : Nat) : (s.onCarousel k f).findOrder j = s.findOrder j := rfl
@[simp] theorem State.onCarousel_activeBank (s : State) (k : Nat) (f : Carousel → Carousel) : (s.onCarousel k f).activeBank = s.activeBank := rfl
@[simp] theorem State.setPort_carousel (s : State) (k : Nat) (p : Port) (j : Nat) : (s.setPort k p).carousel j = s.carousel j := rfl
@[simp] theorem State.setPort_lane (s : State) (k : Nat) (p : Port) (j : Nat) : (s.setPort k p).lane j = s.lane j := rfl
@[simp] theorem State.setPort_auditRecord (s : State) (k : Nat) (p : Port) (j : Nat) : (s.setPort k p).auditRecord j = s.auditRecord j := rfl
@[simp] theorem State.setPort_slot (s : State) (k : Nat) (p : Port) (j : Nat) : (s.setPort k p).slot j = s.slot j := rfl
@[simp] theorem State.setPort_findOrder (s : State) (k : Nat) (p : Port) (j : Nat) : (s.setPort k p).findOrder j = s.findOrder j := rfl
@[simp] theorem State.setPort_activeBank (s : State) (k : Nat) (p : Port) : (s.setPort k p).activeBank = s.activeBank := rfl
@[simp] theorem State.onPort_carousel (s : State) (k : Nat) (f : Port → Port) (j : Nat) : (s.onPort k f).carousel j = s.carousel j := rfl
@[simp] theorem State.onPort_lane (s : State) (k : Nat) (f : Port → Port) (j : Nat) : (s.onPort k f).lane j = s.lane j := rfl
@[simp] theorem State.onPort_auditRecord (s : State) (k : Nat) (f : Port → Port) (j : Nat) : (s.onPort k f).auditRecord j = s.auditRecord j := rfl
@[simp] theorem State.onPort_slot (s : State) (k : Nat) (f : Port → Port) (j : Nat) : (s.onPort k f).slot j = s.slot j := rfl
@[simp] theorem State.onPort_findOrder (s : State) (k : Nat) (f : Port → Port) (j : Nat) : (s.onPort k f).findOrder j = s.findOrder j := rfl
@[simp] theorem State.onPort_activeBank (s : State) (k : Nat) (f : Port → Port) : (s.onPort k f).activeBank = s.activeBank := rfl
@[simp] theorem State.setLane_carousel (s : State) (q : Nat) (l : Lane) (j : Nat) : (s.setLane q l).carousel j = s.carousel j := rfl
@[simp] theorem State.setLane_port (s : State) (q : Nat) (l : Lane) (j : Nat) : (s.setLane q l).port j = s.port j := rfl
@[simp] theorem State.setLane_auditRecord (s : State) (q : Nat) (l : Lane) (j : Nat) : (s.setLane q l).auditRecord j = s.auditRecord j := rfl
@[simp] theorem State.setLane_slot (s : State) (q : Nat) (l : Lane) (j : Nat) : (s.setLane q l).slot j = s.slot j := rfl
@[simp] theorem State.setLane_findOrder (s : State) (q : Nat) (l : Lane) (j : Nat) : (s.setLane q l).findOrder j = s.findOrder j := rfl
@[simp] theorem State.setLane_activeBank (s : State) (q : Nat) (l : Lane) : (s.setLane q l).activeBank = s.activeBank := rfl
@[simp] theorem State.onLane_carousel (s : State) (q : Nat) (f : Lane → Lane) (j : Nat) : (s.onLane q f).carousel j = s.carousel j := rfl
@[simp] theorem State.onLane_port (s : State) (q : Nat) (f : Lane → Lane) (j : Nat) : (s.onLane q f).port j = s.port j := rfl
@[simp] theorem State.onLane_auditRecord (s : State) (q : Nat) (f : Lane → Lane) (j : Nat) : (s.onLane q f).auditRecord j = s.auditRecord j := rfl
@[simp] theorem State.onLane_slot (s : State) (q : Nat) (f : Lane → Lane) (j : Nat) : (s.onLane q f).slot j = s.slot j := rfl
@[simp] theorem State.onLane_findOrder (s : State) (q : Nat) (f : Lane → Lane) (j : Nat) : (s.onLane q f).findOrder j = s.findOrder j := rfl
@[simp] theorem State.onLane_activeBank (s : State) (q : Nat) (f : Lane → Lane) : (s.onLane q f).activeBank = s.activeBank := rfl
@[simp] theorem State.setAuditRecord_carousel (s : State) (k : Nat) (a : AuditRecord) (j : Nat) : (s.setAuditRecord k a).carousel j = s.carousel j := rfl
@[simp] theorem State.setAuditRecord_port (s : State) (k : Nat) (a : AuditRecord) (j : Nat) : (s.setAuditRecord k a).port j = s.port j := rfl
@[simp] theorem State.setAuditRecord_lane (s : State) (k : Nat) (a : AuditRecord) (j : Nat) : (s.setAuditRecord k a).lane j = s.lane j := rfl
@[simp] theorem State.setAuditRecord_slot (s : State) (k : Nat) (a : AuditRecord) (j : Nat) : (s.setAuditRecord k a).slot j = s.slot j := rfl
@[simp] theorem State.setAuditRecord_findOrder (s : State) (k : Nat) (a : AuditRecord) (j : Nat) : (s.setAuditRecord k a).findOrder j = s.findOrder j := rfl
@[simp] theorem State.setAuditRecord_activeBank (s : State) (k : Nat) (a : AuditRecord) : (s.setAuditRecord k a).activeBank = s.activeBank := rfl
@[simp] theorem State.onAudit_carousel (s : State) (k : Nat) (f : AuditRecord → AuditRecord) (j : Nat) : (s.onAudit k f).carousel j = s.carousel j := rfl
@[simp] theorem State.onAudit_port (s : State) (k : Nat) (f : AuditRecord → AuditRecord) (j : Nat) : (s.onAudit k f).port j = s.port j := rfl
@[simp] theorem State.onAudit_lane (s : State) (k : Nat) (f : AuditRecord → AuditRecord) (j : Nat) : (s.onAudit k f).lane j = s.lane j := rfl
@[simp] theorem State.onAudit_slot (s : State) (k : Nat) (f : AuditRecord → AuditRecord) (j : Nat) : (s.onAudit k f).slot j = s.slot j := rfl
@[simp] theorem State.onAudit_findOrder (s : State) (k : Nat) (f : AuditRecord → AuditRecord) (j : Nat) : (s.onAudit k f).findOrder j = s.findOrder j := rfl
@[simp] theorem State.onAudit_activeBank (s : State) (k : Nat) (f : AuditRecord → AuditRecord) : (s.onAudit k f).activeBank = s.activeBank := rfl
@[simp] theorem State.setSlot_carousel (s : State) (i : Nat) (x : Slot) (j : Nat) : (s.setSlot i x).carousel j = s.carousel j := rfl
@[simp] theorem State.setSlot_port (s : State) (i : Nat) (x : Slot) (j : Nat) : (s.setSlot i x).port j = s.port j := rfl
@[simp] theorem State.setSlot_lane (s : State) (i : Nat) (x : Slot) (j : Nat) : (s.setSlot i x).lane j = s.lane j := rfl
@[simp] theorem State.setSlot_auditRecord (s : State) (i : Nat) (x : Slot) (j : Nat) : (s.setSlot i x).auditRecord j = s.auditRecord j := rfl
@[simp] theorem State.setSlot_findOrder (s : State) (i : Nat) (x : Slot) (j : Nat) : (s.setSlot i x).findOrder j = s.findOrder j := rfl
@[simp] theorem State.setSlot_activeBank (s : State) (i : Nat) (x : Slot) : (s.setSlot i x).activeBank = s.activeBank := rfl
@[simp] theorem State.setOrders_carousel (s : State) (os : List Order) (j : Nat) : (s.setOrders os).carousel j = s.carousel j := rfl
@[simp] theorem State.setOrders_port (s : State) (os : List Order) (j : Nat) : (s.setOrders os).port j = s.port j := rfl
@[simp] theorem State.setOrders_lane (s : State) (os : List Order) (j : Nat) : (s.setOrders os).lane j = s.lane j := rfl
@[simp] theorem State.setOrders_auditRecord (s : State) (os : List Order) (j : Nat) : (s.setOrders os).auditRecord j = s.auditRecord j := rfl
@[simp] theorem State.setOrders_slot (s : State) (os : List Order) (j : Nat) : (s.setOrders os).slot j = s.slot j := rfl
@[simp] theorem State.setOrders_activeBank (s : State) (os : List Order) : (s.setOrders os).activeBank = s.activeBank := rfl
@[simp] theorem State.onOrder_carousel (s : State) (id : Nat) (f : Order → Order) (j : Nat) : (s.onOrder id f).carousel j = s.carousel j := rfl
@[simp] theorem State.onOrder_port (s : State) (id : Nat) (f : Order → Order) (j : Nat) : (s.onOrder id f).port j = s.port j := rfl
@[simp] theorem State.onOrder_lane (s : State) (id : Nat) (f : Order → Order) (j : Nat) : (s.onOrder id f).lane j = s.lane j := rfl
@[simp] theorem State.onOrder_auditRecord (s : State) (id : Nat) (f : Order → Order) (j : Nat) : (s.onOrder id f).auditRecord j = s.auditRecord j := rfl
@[simp] theorem State.onOrder_slot (s : State) (id : Nat) (f : Order → Order) (j : Nat) : (s.onOrder id f).slot j = s.slot j := rfl
@[simp] theorem State.onOrder_activeBank (s : State) (id : Nat) (f : Order → Order) : (s.onOrder id f).activeBank = s.activeBank := rfl
@[simp] theorem State.onLine_carousel (s : State) (id n : Nat) (f : Line → Line) (j : Nat) : (s.onLine id n f).carousel j = s.carousel j := rfl
@[simp] theorem State.onLine_port (s : State) (id n : Nat) (f : Line → Line) (j : Nat) : (s.onLine id n f).port j = s.port j := rfl
@[simp] theorem State.onLine_lane (s : State) (id n : Nat) (f : Line → Line) (j : Nat) : (s.onLine id n f).lane j = s.lane j := rfl
@[simp] theorem State.onLine_auditRecord (s : State) (id n : Nat) (f : Line → Line) (j : Nat) : (s.onLine id n f).auditRecord j = s.auditRecord j := rfl
@[simp] theorem State.onLine_slot (s : State) (id n : Nat) (f : Line → Line) (j : Nat) : (s.onLine id n f).slot j = s.slot j := rfl
@[simp] theorem State.onLine_activeBank (s : State) (id n : Nat) (f : Line → Line) : (s.onLine id n f).activeBank = s.activeBank := rfl
@[simp] theorem State.setWaiting_carousel (s : State) (ws : List WaitingChain) (j : Nat) : (s.setWaiting ws).carousel j = s.carousel j := rfl
@[simp] theorem State.setWaiting_port (s : State) (ws : List WaitingChain) (j : Nat) : (s.setWaiting ws).port j = s.port j := rfl
@[simp] theorem State.setWaiting_auditRecord (s : State) (ws : List WaitingChain) (j : Nat) : (s.setWaiting ws).auditRecord j = s.auditRecord j := rfl
@[simp] theorem State.setWaiting_slot (s : State) (ws : List WaitingChain) (j : Nat) : (s.setWaiting ws).slot j = s.slot j := rfl
@[simp] theorem State.setWaiting_findOrder (s : State) (ws : List WaitingChain) (j : Nat) : (s.setWaiting ws).findOrder j = s.findOrder j := rfl
@[simp] theorem State.setWaiting_activeBank (s : State) (ws : List WaitingChain) : (s.setWaiting ws).activeBank = s.activeBank := rfl
@[simp] theorem State.setSession_carousel (s : State) (x : Option Session) (j : Nat) : (s.setSession x).carousel j = s.carousel j := rfl
@[simp] theorem State.setSession_port (s : State) (x : Option Session) (j : Nat) : (s.setSession x).port j = s.port j := rfl
@[simp] theorem State.setSession_lane (s : State) (x : Option Session) (j : Nat) : (s.setSession x).lane j = s.lane j := rfl
@[simp] theorem State.setSession_auditRecord (s : State) (x : Option Session) (j : Nat) : (s.setSession x).auditRecord j = s.auditRecord j := rfl
@[simp] theorem State.setSession_slot (s : State) (x : Option Session) (j : Nat) : (s.setSession x).slot j = s.slot j := rfl
@[simp] theorem State.setSession_findOrder (s : State) (x : Option Session) (j : Nat) : (s.setSession x).findOrder j = s.findOrder j := rfl
@[simp] theorem State.setShadowBank_carousel (s : State) (b : Bank) (j : Nat) : (s.setShadowBank b).carousel j = s.carousel j := by simp [State.carousel]
@[simp] theorem State.setShadowBank_port (s : State) (b : Bank) (j : Nat) : (s.setShadowBank b).port j = s.port j := by simp [State.port]
@[simp] theorem State.setShadowBank_lane (s : State) (b : Bank) (j : Nat) : (s.setShadowBank b).lane j = s.lane j := by simp [State.lane]
@[simp] theorem State.setShadowBank_auditRecord (s : State) (b : Bank) (j : Nat) : (s.setShadowBank b).auditRecord j = s.auditRecord j := by simp [State.auditRecord]
@[simp] theorem State.setShadowBank_slot (s : State) (b : Bank) (j : Nat) : (s.setShadowBank b).slot j = s.slot j := by simp [State.slot]
@[simp] theorem State.setShadowBank_findOrder (s : State) (b : Bank) (j : Nat) : (s.setShadowBank b).findOrder j = s.findOrder j := by simp [State.findOrder]
@[simp] theorem State.withCalendar_carousel (s : State) (w y : Nat) (j : Nat) : (s.withCalendar w y).carousel j = s.carousel j := rfl
@[simp] theorem State.withCalendar_port (s : State) (w y : Nat) (j : Nat) : (s.withCalendar w y).port j = s.port j := rfl
@[simp] theorem State.withCalendar_lane (s : State) (w y : Nat) (j : Nat) : (s.withCalendar w y).lane j = s.lane j := rfl
@[simp] theorem State.withCalendar_auditRecord (s : State) (w y : Nat) (j : Nat) : (s.withCalendar w y).auditRecord j = s.auditRecord j := rfl
@[simp] theorem State.withCalendar_findOrder (s : State) (w y : Nat) (j : Nat) : (s.withCalendar w y).findOrder j = s.findOrder j := rfl
@[simp] theorem State.withCalendar_activeBank (s : State) (w y : Nat) : (s.withCalendar w y).activeBank = s.activeBank := rfl
@[simp] theorem State.hand_carousel (s : State) (cs : List Instr) (j : Nat) : (s.hand cs).carousel j = s.carousel j := rfl
@[simp] theorem State.hand_port (s : State) (cs : List Instr) (j : Nat) : (s.hand cs).port j = s.port j := rfl
@[simp] theorem State.hand_lane (s : State) (cs : List Instr) (j : Nat) : (s.hand cs).lane j = s.lane j := rfl
@[simp] theorem State.hand_auditRecord (s : State) (cs : List Instr) (j : Nat) : (s.hand cs).auditRecord j = s.auditRecord j := rfl
@[simp] theorem State.hand_slot (s : State) (cs : List Instr) (j : Nat) : (s.hand cs).slot j = s.slot j := rfl
@[simp] theorem State.hand_findOrder (s : State) (cs : List Instr) (j : Nat) : (s.hand cs).findOrder j = s.findOrder j := rfl
@[simp] theorem State.hand_activeBank (s : State) (cs : List Instr) : (s.hand cs).activeBank = s.activeBank := rfl
@[simp] theorem State.handFirst_carousel (s : State) (cs : List Instr) (j : Nat) : (s.handFirst cs).carousel j = s.carousel j := rfl
@[simp] theorem State.handFirst_port (s : State) (cs : List Instr) (j : Nat) : (s.handFirst cs).port j = s.port j := rfl
@[simp] theorem State.handFirst_lane (s : State) (cs : List Instr) (j : Nat) : (s.handFirst cs).lane j = s.lane j := rfl
@[simp] theorem State.handFirst_auditRecord (s : State) (cs : List Instr) (j : Nat) : (s.handFirst cs).auditRecord j = s.auditRecord j := rfl
@[simp] theorem State.handFirst_slot (s : State) (cs : List Instr) (j : Nat) : (s.handFirst cs).slot j = s.slot j := rfl
@[simp] theorem State.handFirst_findOrder (s : State) (cs : List Instr) (j : Nat) : (s.handFirst cs).findOrder j = s.findOrder j := rfl
@[simp] theorem State.handFirst_activeBank (s : State) (cs : List Instr) : (s.handFirst cs).activeBank = s.activeBank := rfl
@[simp] theorem State.take_carousel (s : State) (c : Instr) (j : Nat) : (s.take c).carousel j = s.carousel j := rfl
@[simp] theorem State.take_port (s : State) (c : Instr) (j : Nat) : (s.take c).port j = s.port j := rfl
@[simp] theorem State.take_lane (s : State) (c : Instr) (j : Nat) : (s.take c).lane j = s.lane j := rfl
@[simp] theorem State.take_auditRecord (s : State) (c : Instr) (j : Nat) : (s.take c).auditRecord j = s.auditRecord j := rfl
@[simp] theorem State.take_slot (s : State) (c : Instr) (j : Nat) : (s.take c).slot j = s.slot j := rfl
@[simp] theorem State.take_findOrder (s : State) (c : Instr) (j : Nat) : (s.take c).findOrder j = s.findOrder j := rfl
@[simp] theorem State.take_activeBank (s : State) (c : Instr) : (s.take c).activeBank = s.activeBank := rfl
@[simp] theorem State.count_carousel (s : State) (f : Counters → Counters) (j : Nat) : (s.count f).carousel j = s.carousel j := rfl
@[simp] theorem State.count_port (s : State) (f : Counters → Counters) (j : Nat) : (s.count f).port j = s.port j := rfl
@[simp] theorem State.count_lane (s : State) (f : Counters → Counters) (j : Nat) : (s.count f).lane j = s.lane j := rfl
@[simp] theorem State.count_auditRecord (s : State) (f : Counters → Counters) (j : Nat) : (s.count f).auditRecord j = s.auditRecord j := rfl
@[simp] theorem State.count_slot (s : State) (f : Counters → Counters) (j : Nat) : (s.count f).slot j = s.slot j := rfl
@[simp] theorem State.count_findOrder (s : State) (f : Counters → Counters) (j : Nat) : (s.count f).findOrder j = s.findOrder j := rfl
@[simp] theorem State.count_activeBank (s : State) (f : Counters → Counters) : (s.count f).activeBank = s.activeBank := rfl
@[simp] theorem State.placeReply_carousel (s : State) (d n : Nat) (st : Status) (x : List Byte) (j : Nat) : (s.placeReply d n st x).carousel j = s.carousel j := rfl
@[simp] theorem State.placeReply_port (s : State) (d n : Nat) (st : Status) (x : List Byte) (j : Nat) : (s.placeReply d n st x).port j = s.port j := rfl
@[simp] theorem State.placeReply_lane (s : State) (d n : Nat) (st : Status) (x : List Byte) (j : Nat) : (s.placeReply d n st x).lane j = s.lane j := rfl
@[simp] theorem State.placeReply_auditRecord (s : State) (d n : Nat) (st : Status) (x : List Byte) (j : Nat) : (s.placeReply d n st x).auditRecord j = s.auditRecord j := rfl
@[simp] theorem State.placeReply_slot (s : State) (d n : Nat) (st : Status) (x : List Byte) (j : Nat) : (s.placeReply d n st x).slot j = s.slot j := rfl
@[simp] theorem State.placeReply_findOrder (s : State) (d n : Nat) (st : Status) (x : List Byte) (j : Nat) : (s.placeReply d n st x).findOrder j = s.findOrder j := rfl
@[simp] theorem State.placeReply_activeBank (s : State) (d n : Nat) (st : Status) (x : List Byte) : (s.placeReply d n st x).activeBank = s.activeBank := rfl
@[simp] theorem State.placeNotice_carousel (s : State) (n : Notice) (j : Nat) : (s.placeNotice n).carousel j = s.carousel j := rfl
@[simp] theorem State.placeNotice_port (s : State) (n : Notice) (j : Nat) : (s.placeNotice n).port j = s.port j := rfl
@[simp] theorem State.placeNotice_lane (s : State) (n : Notice) (j : Nat) : (s.placeNotice n).lane j = s.lane j := rfl
@[simp] theorem State.placeNotice_auditRecord (s : State) (n : Notice) (j : Nat) : (s.placeNotice n).auditRecord j = s.auditRecord j := rfl
@[simp] theorem State.placeNotice_slot (s : State) (n : Notice) (j : Nat) : (s.placeNotice n).slot j = s.slot j := rfl
@[simp] theorem State.placeNotice_findOrder (s : State) (n : Notice) (j : Nat) : (s.placeNotice n).findOrder j = s.findOrder j := rfl
@[simp] theorem State.placeNotice_activeBank (s : State) (n : Notice) : (s.placeNotice n).activeBank = s.activeBank := rfl
@[simp] theorem State.loseNotice_carousel (s : State) (j : Nat) : s.loseNotice.carousel j = s.carousel j := rfl
@[simp] theorem State.loseNotice_port (s : State) (j : Nat) : s.loseNotice.port j = s.port j := rfl
@[simp] theorem State.loseNotice_lane (s : State) (j : Nat) : s.loseNotice.lane j = s.lane j := rfl
@[simp] theorem State.loseNotice_auditRecord (s : State) (j : Nat) : s.loseNotice.auditRecord j = s.auditRecord j := rfl
@[simp] theorem State.loseNotice_slot (s : State) (j : Nat) : s.loseNotice.slot j = s.slot j := rfl
@[simp] theorem State.loseNotice_findOrder (s : State) (j : Nat) : s.loseNotice.findOrder j = s.findOrder j := rfl
@[simp] theorem State.loseNotice_activeBank (s : State) : s.loseNotice.activeBank = s.activeBank := rfl
@[simp] theorem State.notify_carousel (s : State) (n : Notice) (j : Nat) : (s.notify n).carousel j = s.carousel j := by simp [State.carousel]
@[simp] theorem State.notify_port (s : State) (n : Notice) (j : Nat) : (s.notify n).port j = s.port j := by simp [State.port]
@[simp] theorem State.notify_lane (s : State) (n : Notice) (j : Nat) : (s.notify n).lane j = s.lane j := by simp [State.lane]
@[simp] theorem State.notify_auditRecord (s : State) (n : Notice) (j : Nat) : (s.notify n).auditRecord j = s.auditRecord j := by simp [State.auditRecord]
@[simp] theorem State.notify_slot (s : State) (n : Notice) (j : Nat) : (s.notify n).slot j = s.slot j := by simp [State.slot]
@[simp] theorem State.notify_findOrder (s : State) (n : Notice) (j : Nat) : (s.notify n).findOrder j = s.findOrder j := by simp [State.findOrder]
@[simp] theorem State.notify_activeBank (s : State) (n : Notice) : (s.notify n).activeBank = s.activeBank := by simp [State.activeBank]
@[simp] theorem State.queueField_carousel (s : State) (x : FieldTarget) (c : FieldCommand) (j : Nat) : (s.queueField x c).carousel j = s.carousel j := by simp [State.carousel]
@[simp] theorem State.queueField_port (s : State) (x : FieldTarget) (c : FieldCommand) (j : Nat) : (s.queueField x c).port j = s.port j := by simp [State.port]
@[simp] theorem State.queueField_lane (s : State) (x : FieldTarget) (c : FieldCommand) (j : Nat) : (s.queueField x c).lane j = s.lane j := by simp [State.lane]
@[simp] theorem State.queueField_auditRecord (s : State) (x : FieldTarget) (c : FieldCommand) (j : Nat) : (s.queueField x c).auditRecord j = s.auditRecord j := by simp [State.auditRecord]
@[simp] theorem State.queueField_slot (s : State) (x : FieldTarget) (c : FieldCommand) (j : Nat) : (s.queueField x c).slot j = s.slot j := by simp [State.slot]
@[simp] theorem State.queueField_findOrder (s : State) (x : FieldTarget) (c : FieldCommand) (j : Nat) : (s.queueField x c).findOrder j = s.findOrder j := by simp [State.findOrder]
@[simp] theorem State.queueField_activeBank (s : State) (x : FieldTarget) (c : FieldCommand) : (s.queueField x c).activeBank = s.activeBank := by simp [State.activeBank]
@[simp] theorem State.withdrawField_carousel (s : State) (x : FieldTarget) (j : Nat) : (s.withdrawField x).carousel j = s.carousel j := rfl
@[simp] theorem State.withdrawField_port (s : State) (x : FieldTarget) (j : Nat) : (s.withdrawField x).port j = s.port j := rfl
@[simp] theorem State.withdrawField_lane (s : State) (x : FieldTarget) (j : Nat) : (s.withdrawField x).lane j = s.lane j := rfl
@[simp] theorem State.withdrawField_auditRecord (s : State) (x : FieldTarget) (j : Nat) : (s.withdrawField x).auditRecord j = s.auditRecord j := rfl
@[simp] theorem State.withdrawField_slot (s : State) (x : FieldTarget) (j : Nat) : (s.withdrawField x).slot j = s.slot j := rfl
@[simp] theorem State.withdrawField_findOrder (s : State) (x : FieldTarget) (j : Nat) : (s.withdrawField x).findOrder j = s.findOrder j := rfl
@[simp] theorem State.withdrawField_activeBank (s : State) (x : FieldTarget) : (s.withdrawField x).activeBank = s.activeBank := rfl
@[simp] theorem State.setMessage_carousel (s : State) (k : Nat) (m : Message) (j : Nat) : (s.setMessage k m).carousel j = s.carousel j := rfl
@[simp] theorem State.setMessage_lane (s : State) (k : Nat) (m : Message) (j : Nat) : (s.setMessage k m).lane j = s.lane j := rfl
@[simp] theorem State.setMessage_auditRecord (s : State) (k : Nat) (m : Message) (j : Nat) : (s.setMessage k m).auditRecord j = s.auditRecord j := rfl
@[simp] theorem State.setMessage_slot (s : State) (k : Nat) (m : Message) (j : Nat) : (s.setMessage k m).slot j = s.slot j := rfl
@[simp] theorem State.setMessage_findOrder (s : State) (k : Nat) (m : Message) (j : Nat) : (s.setMessage k m).findOrder j = s.findOrder j := rfl
@[simp] theorem State.setMessage_activeBank (s : State) (k : Nat) (m : Message) : (s.setMessage k m).activeBank = s.activeBank := rfl
@[simp] theorem State.darken_carousel (s : State) (k : Nat) (m : Message) (j : Nat) : (s.darken k m).carousel j = s.carousel j := rfl
@[simp] theorem State.darken_lane (s : State) (k : Nat) (m : Message) (j : Nat) : (s.darken k m).lane j = s.lane j := rfl
@[simp] theorem State.darken_auditRecord (s : State) (k : Nat) (m : Message) (j : Nat) : (s.darken k m).auditRecord j = s.auditRecord j := rfl
@[simp] theorem State.darken_slot (s : State) (k : Nat) (m : Message) (j : Nat) : (s.darken k m).slot j = s.slot j := rfl
@[simp] theorem State.darken_findOrder (s : State) (k : Nat) (m : Message) (j : Nat) : (s.darken k m).findOrder j = s.findOrder j := rfl
@[simp] theorem State.darken_activeBank (s : State) (k : Nat) (m : Message) : (s.darken k m).activeBank = s.activeBank := rfl
@[simp] theorem State.rebuild_carousel (s : State) (k : Nat) (j : Nat) : (s.rebuild k).carousel j = s.carousel j := by simp [State.carousel]
@[simp] theorem State.rebuild_lane (s : State) (k : Nat) (j : Nat) : (s.rebuild k).lane j = s.lane j := by simp [State.lane]
@[simp] theorem State.rebuild_auditRecord (s : State) (k : Nat) (j : Nat) : (s.rebuild k).auditRecord j = s.auditRecord j := by simp [State.auditRecord]
@[simp] theorem State.rebuild_slot (s : State) (k : Nat) (j : Nat) : (s.rebuild k).slot j = s.slot j := by simp [State.slot]
@[simp] theorem State.rebuild_findOrder (s : State) (k : Nat) (j : Nat) : (s.rebuild k).findOrder j = s.findOrder j := by simp [State.findOrder]
@[simp] theorem State.rebuild_activeBank (s : State) (k : Nat) : (s.rebuild k).activeBank = s.activeBank := by simp [State.activeBank]
@[simp] theorem State.writeSlot_carousel (s : State) (i : Nat) (x : Slot) (j : Nat) : (s.writeSlot i x).carousel j = s.carousel j := by simp [State.carousel]
@[simp] theorem State.writeSlot_lane (s : State) (i : Nat) (x : Slot) (j : Nat) : (s.writeSlot i x).lane j = s.lane j := by simp [State.lane]
@[simp] theorem State.writeSlot_auditRecord (s : State) (i : Nat) (x : Slot) (j : Nat) : (s.writeSlot i x).auditRecord j = s.auditRecord j := by simp [State.auditRecord]
@[simp] theorem State.writeSlot_findOrder (s : State) (i : Nat) (x : Slot) (j : Nat) : (s.writeSlot i x).findOrder j = s.findOrder j := by simp [State.findOrder]
@[simp] theorem State.writeSlot_activeBank (s : State) (i : Nat) (x : Slot) : (s.writeSlot i x).activeBank = s.activeBank := by simp [State.activeBank]
@[simp] theorem State.recontent_carousel (s : State) (i : Nat) (x : Content) (j : Nat) : (s.recontent i x).carousel j = s.carousel j := by simp [State.carousel]
@[simp] theorem State.recontent_lane (s : State) (i : Nat) (x : Content) (j : Nat) : (s.recontent i x).lane j = s.lane j := by simp [State.lane]
@[simp] theorem State.recontent_auditRecord (s : State) (i : Nat) (x : Content) (j : Nat) : (s.recontent i x).auditRecord j = s.auditRecord j := by simp [State.auditRecord]
@[simp] theorem State.recontent_findOrder (s : State) (i : Nat) (x : Content) (j : Nat) : (s.recontent i x).findOrder j = s.findOrder j := by simp [State.findOrder]
@[simp] theorem State.recontent_activeBank (s : State) (i : Nat) (x : Content) : (s.recontent i x).activeBank = s.activeBank := by simp [State.activeBank]
@[simp] theorem State.refresh_carousel (s : State) (i : Nat) (x : Content) (j : Nat) : (s.refresh i x).carousel j = s.carousel j := by simp [State.carousel]
@[simp] theorem State.refresh_lane (s : State) (i : Nat) (x : Content) (j : Nat) : (s.refresh i x).lane j = s.lane j := by simp [State.lane]
@[simp] theorem State.refresh_auditRecord (s : State) (i : Nat) (x : Content) (j : Nat) : (s.refresh i x).auditRecord j = s.auditRecord j := by simp [State.auditRecord]
@[simp] theorem State.refresh_findOrder (s : State) (i : Nat) (x : Content) (j : Nat) : (s.refresh i x).findOrder j = s.findOrder j := by simp [State.findOrder]
@[simp] theorem State.refresh_activeBank (s : State) (i : Nat) (x : Content) : (s.refresh i x).activeBank = s.activeBank := by simp [State.activeBank]

/-! ## A record after a write of its own table -/

theorem State.setCarousel_read (s : State) (k : Nat) (c : Carousel) (j : Nat) :
    (s.setCarousel k c).carousel j = if j = k then c else s.carousel j :=
  sparseGet_set _ k j c _
@[simp] theorem State.setCarousel_same (s : State) (k : Nat) (c : Carousel) :
    (s.setCarousel k c).carousel k = c := by simp [State.setCarousel_read]
theorem State.onCarousel_read (s : State) (k : Nat) (f : Carousel → Carousel) (j : Nat) :
    (s.onCarousel k f).carousel j = if j = k then f (s.carousel k) else s.carousel j :=
  sparseGet_set _ k j _ _
@[simp] theorem State.onCarousel_same (s : State) (k : Nat) (f : Carousel → Carousel) :
    (s.onCarousel k f).carousel k = f (s.carousel k) := by simp [State.onCarousel_read]

theorem State.setPort_read (s : State) (k : Nat) (p : Port) (j : Nat) :
    (s.setPort k p).port j = if j = k then p else s.port j :=
  sparseGet_set _ k j p _
@[simp] theorem State.setPort_same (s : State) (k : Nat) (p : Port) :
    (s.setPort k p).port k = p := by simp [State.setPort_read]
theorem State.onPort_read (s : State) (k : Nat) (f : Port → Port) (j : Nat) :
    (s.onPort k f).port j = if j = k then f (s.port k) else s.port j :=
  sparseGet_set _ k j _ _
@[simp] theorem State.onPort_same (s : State) (k : Nat) (f : Port → Port) :
    (s.onPort k f).port k = f (s.port k) := by simp [State.onPort_read]

theorem State.setLane_read (s : State) (k : Nat) (l : Lane) (j : Nat) :
    (s.setLane k l).lane j = if j = k then l else s.lane j :=
  sparseGet_set _ k j l _
@[simp] theorem State.setLane_same (s : State) (k : Nat) (l : Lane) :
    (s.setLane k l).lane k = l := by simp [State.setLane_read]
theorem State.onLane_read (s : State) (k : Nat) (f : Lane → Lane) (j : Nat) :
    (s.onLane k f).lane j = if j = k then f (s.lane k) else s.lane j :=
  sparseGet_set _ k j _ _
@[simp] theorem State.onLane_same (s : State) (k : Nat) (f : Lane → Lane) :
    (s.onLane k f).lane k = f (s.lane k) := by simp [State.onLane_read]

theorem State.setAuditRecord_read (s : State) (k : Nat) (a : AuditRecord) (j : Nat) :
    (s.setAuditRecord k a).auditRecord j = if j = k then a else s.auditRecord j :=
  sparseGet_set _ k j a _
theorem State.onAudit_read (s : State) (k : Nat) (f : AuditRecord → AuditRecord) (j : Nat) :
    (s.onAudit k f).auditRecord j = if j = k then f (s.auditRecord k) else s.auditRecord j :=
  sparseGet_set _ k j _ _
@[simp] theorem State.onAudit_same (s : State) (k : Nat) (f : AuditRecord → AuditRecord) :
    (s.onAudit k f).auditRecord k = f (s.auditRecord k) := by simp [State.onAudit_read]

theorem State.setSlot_read (s : State) (i : Nat) (x : Slot) (j : Nat) :
    (s.setSlot i x).slot j = if j = i then x else s.slot j :=
  sparseGet_set _ i j x _
@[simp] theorem State.setSlot_same (s : State) (i : Nat) (x : Slot) : (s.setSlot i x).slot i = x := by
  simp [State.setSlot_read]
@[simp] theorem State.setSlot_calendar (s : State) (i : Nat) (x : Slot) :
    (s.setSlot i x).stock.calendar = s.stock.calendar := rfl
theorem State.writeSlot_read (s : State) (i : Nat) (x : Slot) (j : Nat) :
    (s.writeSlot i x).slot j = if j = i then x else s.slot j := by
  unfold State.writeSlot; split <;> simp [State.setSlot_read]

@[simp] theorem State.setShadowBank_activeBank (s : State) (b : Bank) :
    (s.setShadowBank b).activeBank = s.activeBank := by
  cases h : s.policy.active <;> simp [State.setShadowBank, State.activeBank, h]
@[simp] theorem State.setShadowBank_shadowBank (s : State) (b : Bank) :
    (s.setShadowBank b).shadowBank = b := by
  cases h : s.policy.active <;> simp [State.setShadowBank, State.shadowBank, h]
@[simp] theorem State.setSession_activeBank (s : State) (x : Option Session) :
    (s.setSession x).activeBank = s.activeBank := rfl

end Sys2Proof.Machine
end

