-- ==== Sys2Proof/Laws/Tags.lean ====
section
/-! SUPPORT. The tags of the slot table (R7): when a write leaves every tag in one slot, what the search for a tag
says, and the work of the blocks that leaves the slot table and the order table as they were. -/

namespace Sys2Proof.Machine

/-! ## Work that changes neither the slot table nor the order table -/

/-- The stock and the order table are as they were. -/
structure Keeping (s t : State) : Prop where
  stock : t.stock = s.stock
  planner : t.planner = s.planner

theorem Keeping.refl (s : State) : Keeping s s := ⟨rfl, rfl⟩

theorem Keeping.trans {s t u : State} (h : Keeping s t) (g : Keeping t u) : Keeping s u :=
  ⟨g.stock.trans h.stock, g.planner.trans h.planner⟩

theorem Keeping.slot {s t : State} (h : Keeping s t) (i : Nat) : t.slot i = s.slot i := by
  simp [State.slot, h.stock]

theorem Keeping.findLine {s t : State} (h : Keeping s t) (id n : Nat) : t.findLine id n = s.findLine id n := by
  simp [State.findLine, State.findOrder, h.planner]

theorem State.underrun_keeping (s : State) (k : Nat) : Keeping s (s.underrun k) := by
  unfold State.underrun
  dsimp only
  cases (s.port k).underrunDisplay <;> dsimp only <;> split <;> constructor <;> simp

theorem State.moveRequest_keeping (s : State) (k : Nat) (p : Purpose) (c : Nat) (l : Leg) :
    Keeping s (s.moveRequest k p c l) := by
  unfold State.moveRequest
  dsimp only
  repeat' split
  all_goals constructor <;> simp [State.setWaitingMove, State.startLeg]

theorem State.callRequest_keeping (s : State) (k : Nat) : Keeping s (s.callRequest k).1 := by
  unfold State.callRequest
  dsimp only
  repeat' split
  all_goals first
    | exact .refl s
    | exact .trans (t := s.onCarousel k _) ⟨rfl, rfl⟩ (State.moveRequest_keeping _ _ _ _ _)
    | exact ⟨rfl, rfl⟩

theorem State.startPresentation_keeping (s : State) (k : Nat) (x : Stop) : Keeping s (s.startPresentation k x) := by
  constructor <;> simp [State.startPresentation]

theorem State.makeCall_keeping (s : State) (k : Nat) : Keeping s (s.makeCall k) := by
  have h := s.callRequest_keeping k
  unfold State.makeCall
  dsimp only
  repeat' split
  all_goals first
    | exact h
    | exact .refl s
    | exact h.trans (State.underrun_keeping _ _)
    | exact h.trans (State.startPresentation_keeping _ _ _)
    | exact h.trans ⟨rfl, rfl⟩

theorem State.autoCall_keeping (s : State) (k : Nat) : Keeping s (s.autoCall k) := by
  unfold State.autoCall
  split
  · exact s.makeCall_keeping k
  · exact .refl s

@[simp] theorem State.autoCall_stock (s : State) (k : Nat) : (s.autoCall k).stock = s.stock := (s.autoCall_keeping k).stock
@[simp] theorem State.autoCall_planner (s : State) (k : Nat) : (s.autoCall k).planner = s.planner :=
  (s.autoCall_keeping k).planner

theorem State.toIdle_keeping (s : State) (k : Nat) : Keeping s (s.toIdle k) := by
  unfold State.toIdle
  refine .trans ?_ (State.autoCall_keeping _ _)
  repeat' split
  all_goals constructor <;> rfl

theorem State.completePresentation_keeping (s : State) (k : Nat) : Keeping s (s.completePresentation k) :=
  .trans (t := s.onPort k _) ⟨rfl, rfl⟩ (State.toIdle_keeping _ _)

@[simp] theorem State.completePresentation_stock (s : State) (k : Nat) : (s.completePresentation k).stock = s.stock :=
  (s.completePresentation_keeping k).stock
@[simp] theorem State.completePresentation_planner (s : State) (k : Nat) :
    (s.completePresentation k).planner = s.planner := (s.completePresentation_keeping k).planner

theorem State.removeTask_keeping (s : State) (i : Nat) : Keeping s (s.removeTask i) := by
  unfold State.removeTask
  dsimp only
  repeat' split
  all_goals constructor <;> simp

theorem State.joinStops_keeping (s : State) (k c : Nat) (t : PickTask) : Keeping s (s.joinStops k c t) := by
  unfold State.joinStops
  dsimp only
  repeat' split
  all_goals constructor <;> simp

/-- A task that reaches the Motion Unit changes neither the slot table nor the order table. -/
theorem State.placeTask_keeping (s : State) (k c : Nat) (t : PickTask) : Keeping s (s.placeTask k c t) := by
  unfold State.placeTask
  repeat' split
  all_goals first
    | exact s.joinStops_keeping k c t
    | constructor <;> simp [State.joinPresentation]

@[simp] theorem State.markLine_stock (s : State) (id n : Nat) (x : Option Nat) :
    (s.markLine id n x).stock = s.stock := by
  unfold State.markLine
  dsimp only
  repeat' split
  all_goals rfl

@[simp] theorem State.cancelReservation_stock (s : State) (i : Nat) : (s.cancelReservation i).stock = s.stock := by
  unfold State.cancelReservation
  split
  · rw [State.markLine_stock, State.onLine_stock, (s.removeTask_keeping i).stock]
  all_goals rfl
@[simp] theorem State.cancelReservation_slot (s : State) (i j : Nat) : (s.cancelReservation i).slot j = s.slot j := by
  simp [State.slot]

@[simp] theorem State.tellPort_stock (s : State) (i : Nat) (f : CarouselNo → Instr) :
    (s.tellPort i f).stock = s.stock := by
  unfold State.tellPort
  repeat' split
  all_goals rfl
@[simp] theorem State.tellPort_slot (s : State) (i : Nat) (f : CarouselNo → Instr) (j : Nat) :
    (s.tellPort i f).slot j = s.slot j := by
  simp [State.slot]

@[simp] theorem State.logFinding_slot (s : State) (i : Nat) (k : Finding) (e o x : Option Nat) (j : Nat) :
    (s.logFinding i k e o x).slot j = s.slot j := by
  unfold State.logFinding
  dsimp only
  rw [State.notify_slot]
  rfl

/-! ## Writes that keep the tags distinct (R7) -/

/-- No slot but `i` records the tag, if there is one. -/
def State.tagFree (s : State) (i : Nat) (o : Option Nat) : Prop :=
  ∀ tag, o = some tag → ∀ j, (s.slot j).content.tag = some tag → j = i

theorem State.tagFree_none (s : State) (i : Nat) : s.tagFree i none := by intro _ h; cases h

theorem TagsDistinct.own {s : State} (h : TagsDistinct s) (i : Nat) : s.tagFree i (s.slot i).content.tag :=
  fun tag h1 j h2 => h j i tag h2 h1

/-- A slot takes a content whose tag no other slot records. -/
theorem TagsDistinct.setSlot {s : State} (h : TagsDistinct s) {i : Nat} {x : Slot} (hx : s.tagFree i x.content.tag) :
    TagsDistinct (s.setSlot i x) := by
  intro a b tag ha hb
  rw [State.setSlot_read] at ha hb
  split at ha <;> split at hb
  · omega
  · subst_vars; exact (hx tag ha b hb).symm
  · subst_vars; exact hx tag hb a ha
  · exact h a b tag ha hb

/-- Two slots take contents with tags that they recorded before, no tag twice. -/
theorem TagsDistinct.setSlots {s : State} (h : TagsDistinct s) {i j : Nat} {x y : Slot}
    (hx : ∀ tag, x.content.tag = some tag → (s.slot i).content.tag = some tag ∨ (s.slot j).content.tag = some tag)
    (hy : ∀ tag, y.content.tag = some tag → (s.slot i).content.tag = some tag ∨ (s.slot j).content.tag = some tag)
    (hn : ∀ tag, x.content.tag = some tag → y.content.tag = some tag → i = j) :
    TagsDistinct ((s.setSlot i x).setSlot j y) := by
  have read : ∀ a tag, (((s.setSlot i x).setSlot j y).slot a).content.tag = some tag →
      (a = j ∧ y.content.tag = some tag) ∨ (a ≠ j ∧ a = i ∧ x.content.tag = some tag)
        ∨ (a ≠ j ∧ a ≠ i ∧ (s.slot a).content.tag = some tag) := by
    intro a tag ha
    rw [State.setSlot_read] at ha
    split at ha
    · exact .inl ⟨‹_›, ha⟩
    · rw [State.setSlot_read] at ha
      split at ha
      · exact .inr (.inl ⟨‹_›, ‹_›, ha⟩)
      · exact .inr (.inr ⟨‹_›, ‹_›, ha⟩)
  have old : ∀ a tag, a ≠ i → a ≠ j → (s.slot a).content.tag = some tag →
      ((s.slot i).content.tag = some tag ∨ (s.slot j).content.tag = some tag) → False := by
    intro a tag h1 h2 h3 h4
    rcases h4 with h4 | h4
    · exact h1 (h a i tag h3 h4)
    · exact h2 (h a j tag h3 h4)
  intro a b tag ha hb
  rcases read a tag ha with ⟨a1, a2⟩ | ⟨a1, a2, a3⟩ | ⟨a1, a2, a3⟩ <;>
    rcases read b tag hb with ⟨b1, b2⟩ | ⟨b1, b2, b3⟩ | ⟨b1, b2, b3⟩
  · omega
  · have := hn tag b3 a2; omega
  · exact (old b tag b2 b1 b3 (hy tag a2)).elim
  · have := hn tag a3 b2; omega
  · omega
  · exact (old b tag b2 b1 b3 (hx tag a3)).elim
  · exact (old a tag a2 a1 a3 (hy tag b2)).elim
  · exact (old a tag a2 a1 a3 (hx tag b3)).elim
  · exact h a b tag a3 b3

/-! ## The search for a tag -/

theorem sparseFind_mem {α : Type} {k : Nat} {v : α} {m : Sparse α} (h : sparseFind k m = some v) : (k, v) ∈ m := by
  induction m with
  | nil => cases h
  | cons x m ih =>
    obtain ⟨j, w⟩ := x
    unfold sparseFind at h
    split at h
    · cases h; subst_vars; exact List.mem_cons_self
    · exact List.mem_cons_of_mem _ (ih h)

theorem sparseFind_of_mem {α : Type} {k : Nat} {v : α} {m : Sparse α} (h : sparseRising m = true) (hm : (k, v) ∈ m) :
    sparseFind k m = some v := by
  induction m with
  | nil => cases hm
  | cons x m ih =>
    obtain ⟨j, w⟩ := x
    simp only [sparseRising, Bool.and_eq_true, List.all_eq_true, decide_eq_true_eq] at h
    unfold sparseFind
    rcases List.mem_cons.1 hm with e | hm
    · cases e; simp
    · rw [if_neg (by have := h.1 _ hm; omega)]
      exact ih h.2 hm

/-- A slot that records a tag is listed. -/
theorem State.tagged_mem {s : State} {i tag : Nat} (h : (s.slot i).content.tag = some tag) :
    (i, s.slot i) ∈ s.stock.slots := by
  unfold State.slot sparseGet at h ⊢
  cases hf : sparseFind i s.stock.slots with
  | none => rw [hf] at h; cases h
  | some v => exact sparseFind_mem hf

/-- A tag that the search does not find is recorded nowhere. -/
theorem State.tagSlot_none {s : State} {tag : Nat} (h : s.tagSlot tag = none) (i : Nat) : s.tagFree i (some tag) := by
  intro t ht j hj
  cases ht
  unfold State.tagSlot at h
  rw [Option.map_eq_none_iff, List.find?_eq_none] at h
  exact absurd hj (by simpa using h _ (State.tagged_mem hj))

/-- A tag that the search does not find elsewhere is recorded in no other slot. -/
theorem State.tagElsewhere_none {s : State} {tag i : Nat} (h : s.tagElsewhere tag i = none) :
    s.tagFree i (some tag) := by
  intro t ht j hj
  cases ht
  unfold State.tagElsewhere at h
  rw [Option.map_eq_none_iff, List.find?_eq_none] at h
  have := h _ (State.tagged_mem hj)
  simpa [hj] using this

/-- A slot that the search finds for a tag records it (R7). -/
theorem State.tagElsewhere_some {s : State} (h : sparseCanonical {} s.stock.slots = true) {tag i v : Nat}
    (hv : s.tagElsewhere tag i = some v) : (s.slot v).content.tag = some tag := by
  unfold State.tagElsewhere at hv
  obtain ⟨⟨j, x⟩, hf, rfl⟩ := Option.map_eq_some_iff.1 hv
  have hx := List.find?_some hf
  simp only [Bool.and_eq_true, decide_eq_true_eq] at hx
  simp only [sparseCanonical, Bool.and_eq_true] at h
  unfold State.slot sparseGet
  rw [sparseFind_of_mem h.1 (List.mem_of_find?_eq_some hf)]
  exact hx.1

/-! ## The tables' canonical form -/

theorem TablesOk.setCarousel {s : State} (h : TablesOk s) (k : Nat) (c : Carousel) :
    TablesOk (s.setCarousel k c) := { h with carousels := sparseCanonical_set k c h.carousels }
theorem TablesOk.setPort {s : State} (h : TablesOk s) (k : Nat) (p : Port) :
    TablesOk (s.setPort k p) := { h with ports := sparseCanonical_set k p h.ports }
theorem TablesOk.setLane {s : State} (h : TablesOk s) (j : Nat) (l : Lane) :
    TablesOk (s.setLane j l) := { h with lanes := sparseCanonical_set j l h.lanes }
theorem TablesOk.setAuditRecord {s : State} (h : TablesOk s) (k : Nat) (a : AuditRecord) :
    TablesOk (s.setAuditRecord k a) := { h with records := sparseCanonical_set k a h.records }
theorem TablesOk.setSlot {s : State} (h : TablesOk s) (i : Nat) (x : Slot) :
    TablesOk (s.setSlot i x) := { h with slots := sparseCanonical_set i x h.slots }

theorem TablesOk.of_eq {s t : State} (h : TablesOk s) (h1 : t.stock.slots = s.stock.slots)
    (h2 : t.motion.carousels = s.motion.carousels) (h3 : t.ports = s.ports)
    (h4 : t.lanes.lanes = s.lanes.lanes) (h5 : t.audit.records = s.audit.records) : TablesOk t :=
  ⟨h1 ▸ h.slots, h2 ▸ h.carousels, h3 ▸ h.ports, h4 ▸ h.lanes, h5 ▸ h.records⟩

end Sys2Proof.Machine
end

