-- ==== Sys2Proof/Laws/Work.lean ====
section
/-! SUPPORT. What the blocks' own work can do to the state: `Work s t` says that `t` is reached from `s` by
writing records of the blocks, handing events, queueing for the field and producing notices. One
induction says what all such work keeps, the configuration of the carousels included; one lemma for each shared operation says that it is such work. -/

namespace Sys2Proof.Machine

/-- `t` is reached from `s` by the blocks' own work. -/
inductive Work (s : State) : State → Prop
  | refl : Work s s
  | setCarousel {t : State} (h : Work s t) (k : Nat) (c : Carousel) (hc : c.fixed = (t.carousel k).fixed) :
      Work s (t.setCarousel k c)
  | creations {t : State} (h : Work s t) (n : Nat) :
      Work s { t with motion := { t.motion with creations := n } }
  | setPort {t : State} (h : Work s t) (k : Nat) (p : Port) : Work s (t.setPort k p)
  | setLane {t : State} (h : Work s t) (j : Nat) (l : Lane) : Work s (t.setLane j l)
  | setWaiting {t : State} (h : Work s t) (ws : List WaitingChain) : Work s (t.setWaiting ws)
  | setAuditRecord {t : State} (h : Work s t) (k : Nat) (a : AuditRecord) : Work s (t.setAuditRecord k a)
  | logged {t : State} (h : Work s t) (l : List LogEntry) (n : Nat) :
      Work s { t with audit := { t.audit with log := l, logCount := n } }
  | setSlot {t : State} (h : Work s t) (i : Nat) (x : Slot)
      (hx : TablesOk s → TagsDistinct t → t.tagFree i x.content.tag) : Work s (t.setSlot i x)
  | setSlots {t : State} (h : Work s t) (i j : Nat) (x y : Slot)
      (hx : TablesOk s → TagsDistinct t → TagsDistinct ((t.setSlot i x).setSlot j y)) :
      Work s ((t.setSlot i x).setSlot j y)
  | planner {t : State} (h : Work s t) (p : Planner) : Work s { t with planner := p }
  | handed {t : State} (h : Work s t) (cs : List Instr) : Work s { t with handed := cs }
  | queueField {t : State} (h : Work s t) (x : FieldTarget) (c : FieldCommand) : Work s (t.queueField x c)
  | withdrawField {t : State} (h : Work s t) (x : FieldTarget) : Work s (t.withdrawField x)
  | notify {t : State} (h : Work s t) (n : Notice) : Work s (t.notify n)

theorem Work.tables {s t : State} (h : Work s t) (ht : TablesOk s) : TablesOk t := by
  induction h with
  | refl => exact ht
  | setCarousel _ k c _ ih => exact ih.setCarousel k c
  | setPort _ k p ih => exact ih.setPort k p
  | setLane _ j l ih => exact ih.setLane j l
  | setAuditRecord _ k a ih => exact ih.setAuditRecord k a
  | setSlot _ i x _ ih => exact ih.setSlot i x
  | setSlots _ i j x y _ ih => exact (ih.setSlot i x).setSlot j y
  | queueField _ x c ih => exact ih.of_eq (by simp) (by simp) (by simp) (by simp) (by simp)
  | notify _ n ih => exact ih.of_eq (by simp) (by simp) (by simp) (by simp) (by simp)
  | _ => rename_i ih; exact ih.of_eq rfl rfl rfl rfl rfl

theorem Work.trans {s t u : State} (h : Work s t) (g : Work t u) : Work s u := by
  induction g with
  | refl => exact h
  | setCarousel _ k c hc ih => exact ih.setCarousel k c hc
  | creations _ n ih => exact ih.creations n
  | setPort _ k p ih => exact ih.setPort k p
  | setLane _ j l ih => exact ih.setLane j l
  | setWaiting _ ws ih => exact ih.setWaiting ws
  | setAuditRecord _ k a ih => exact ih.setAuditRecord k a
  | logged _ l n ih => exact ih.logged l n
  | setSlot _ i x hx ih => exact ih.setSlot i x fun ht => hx (h.tables ht)
  | setSlots _ i j x y hx ih => exact ih.setSlots i j x y fun ht => hx (h.tables ht)
  | planner _ p ih => exact ih.planner p
  | handed _ cs ih => exact ih.handed cs
  | queueField _ x c ih => exact ih.queueField x c
  | withdrawField _ x ih => exact ih.withdrawField x
  | notify _ n ih => exact ih.notify n

theorem Work.fold {s t : State} {α : Type} {f : State → α → State} {xs : List α} (h : Work s t)
    (hf : ∀ u x, Work s u → Work s (f u x)) : Work s (xs.foldl f t) := by
  induction xs generalizing t with
  | nil => exact h
  | cons x xs ih => exact ih (hf t x h)

/-! ## One lemma for each operation -/

theorem Work.onCarousel {s₀ s₁ : State} (h : Work s₀ s₁) (k : Nat) (f : Carousel → Carousel)
    (hf : ∀ c, (f c).fixed = c.fixed) : Work s₀ (s₁.onCarousel k f) := h.setCarousel k _ (hf _)

theorem Work.onPort {s₀ s₁ : State} (h : Work s₀ s₁) (k : Nat) (f : Port → Port) : Work s₀ (s₁.onPort k f) := by
  unfold State.onPort
  repeat' first | assumption | split | with_reducible apply Work.setPort

theorem Work.onLane {s₀ s₁ : State} (h : Work s₀ s₁) (j : Nat) (f : Lane → Lane) : Work s₀ (s₁.onLane j f) := by
  unfold State.onLane
  repeat' first | assumption | split | with_reducible apply Work.setLane

theorem Work.onAudit {s₀ s₁ : State} (h : Work s₀ s₁) (k : Nat) (f : AuditRecord → AuditRecord) : Work s₀ (s₁.onAudit k f) := by
  unfold State.onAudit
  repeat' first | assumption | split | with_reducible apply Work.setAuditRecord

theorem Work.hand {s₀ s₁ : State} (h : Work s₀ s₁) (cs : List Instr) : Work s₀ (s₁.hand cs) := by
  unfold State.hand
  repeat' first | assumption | split | with_reducible apply Work.handed

theorem Work.handFirst {s₀ s₁ : State} (h : Work s₀ s₁) (cs : List Instr) : Work s₀ (s₁.handFirst cs) := by
  unfold State.handFirst
  repeat' first | assumption | split | with_reducible apply Work.handed

theorem Work.take {s₀ s₁ : State} (h : Work s₀ s₁) (c : Instr) : Work s₀ (s₁.take c) := by
  unfold State.take
  repeat' first | assumption | split | with_reducible apply Work.handed

theorem Work.rebuild {s₀ s₁ : State} (h : Work s₀ s₁) (k : Nat) : Work s₀ (s₁.rebuild k) := by
  unfold State.rebuild
  repeat' first | assumption | split | with_reducible apply Work.onPort

theorem Work.setMessage {s₀ s₁ : State} (h : Work s₀ s₁) (k : Nat) (m : Message) : Work s₀ (s₁.setMessage k m) := by
  unfold State.setMessage
  repeat' first | assumption | split | with_reducible apply Work.onPort

theorem Work.darken {s₀ s₁ : State} (h : Work s₀ s₁) (k : Nat) (m : Message) : Work s₀ (s₁.darken k m) := by
  unfold State.darken
  repeat' first | assumption | split | with_reducible apply Work.onPort

theorem Work.writeSlot {s₀ s₁ : State} (h : Work s₀ s₁) (i : Nat) (x : Slot)
    (hx : TablesOk s₀ → TagsDistinct s₁ → s₁.tagFree i x.content.tag) : Work s₀ (s₁.writeSlot i x) := by
  unfold State.writeSlot
  split
  · exact (h.setSlot i x hx).rebuild _
  · exact h.setSlot i x hx

/-- A change of slot `i` is the change of its record, and perhaps of a port. -/
theorem State.writeSlot_port_cases (s : State) (i : Nat) (x : Slot) :
    s.writeSlot i x = s.setSlot i x ∨ ∃ k p, s.writeSlot i x = (s.setSlot i x).setPort k p := by
  unfold State.writeSlot
  split
  · unfold State.rebuild
    split
    · exact .inl rfl
    · exact .inr ⟨_, _, rfl⟩
  · exact .inl rfl

/-- Two changes of slots that together leave every tag in one slot. -/
theorem Work.writeSlots {s₀ s₁ : State} (h : Work s₀ s₁) (i j : Nat) (x y : Slot)
    (hx : TablesOk s₀ → TagsDistinct s₁ → TagsDistinct ((s₁.setSlot i x).setSlot j y)) :
    Work s₀ ((s₁.writeSlot i x).writeSlot j y) := by
  rcases s₁.writeSlot_port_cases i x with e | ⟨k, p, e⟩ <;> rw [e]
  · unfold State.writeSlot
    split
    · exact (h.setSlots i j x y hx).rebuild _
    · exact h.setSlots i j x y hx
  · have e2 : ((s₁.setSlot i x).setPort k p).setSlot j y = ((s₁.setSlot i x).setSlot j y).setPort k p := rfl
    unfold State.writeSlot
    rw [e2]
    split
    · exact ((h.setSlots i j x y hx).setPort k p).rebuild _
    · exact (h.setSlots i j x y hx).setPort k p

theorem Work.idleTest {s₀ s₁ : State} (h : Work s₀ s₁) (k : Nat) : Work s₀ (s₁.idleTest k) := by
  unfold State.idleTest
  repeat' first | assumption | split | with_reducible apply Work.onCarousel | (intro _; rfl)

theorem Work.startLeg {s₀ s₁ : State} (h : Work s₀ s₁) (k : Nat) (purpose : Purpose) (target : Nat) (leg : Leg) : Work s₀ (s₁.startLeg k purpose target leg) := by
  unfold State.startLeg
  repeat' first | assumption | split | with_reducible apply Work.onCarousel | with_reducible apply Work.queueField | (intro _; rfl)

theorem Work.setWaitingMove {s₀ s₁ : State} (h : Work s₀ s₁) (k : Nat) (purpose : Purpose) (target : Nat) : Work s₀ (s₁.setWaitingMove k purpose target) := by
  unfold State.setWaitingMove
  repeat' first | assumption | split | with_reducible apply Work.onCarousel | (intro _; rfl)

theorem Work.moveRequest {s₀ s₁ : State} (h : Work s₀ s₁) (k : Nat) (purpose : Purpose) (target : Nat) (leg : Leg) : Work s₀ (s₁.moveRequest k purpose target leg) := by
  unfold State.moveRequest
  dsimp only
  repeat' first | assumption | split | with_reducible apply Work.setWaitingMove | with_reducible apply Work.onCarousel | with_reducible apply Work.startLeg | (intro _; rfl)

theorem Work.callRequest {s₀ s₁ : State} (h : Work s₀ s₁) (k : Nat) : Work s₀ (s₁.callRequest k).1 := by
  unfold State.callRequest
  dsimp only
  repeat' first | assumption | split | with_reducible apply Work.onCarousel | with_reducible apply Work.moveRequest | (intro _; rfl)

theorem Work.storeCallRequest {s₀ s₁ : State} (h : Work s₀ s₁) (k carrier : Nat) : Work s₀ (s₁.storeCallRequest k carrier).1 := by
  unfold State.storeCallRequest
  dsimp only
  repeat' first | assumption | split | with_reducible apply Work.moveRequest

theorem Work.startPresentation {s₀ s₁ : State} (h : Work s₀ s₁) (k : Nat) (x : Stop) : Work s₀ (s₁.startPresentation k x) := by
  unfold State.startPresentation
  repeat' first | assumption | split | with_reducible apply Work.onPort | with_reducible apply Work.rebuild

theorem Work.underrun {s₀ s₁ : State} (h : Work s₀ s₁) (k : Nat) : Work s₀ (s₁.underrun k) := by
  unfold State.underrun
  dsimp only
  repeat' first | assumption | split | with_reducible apply Work.onPort | with_reducible apply Work.darken | with_reducible apply Work.notify

theorem Work.makeCall {s₀ s₁ : State} (h : Work s₀ s₁) (k : Nat) : Work s₀ (s₁.makeCall k) := by
  unfold State.makeCall
  dsimp only
  repeat' first | assumption | split | with_reducible apply Work.callRequest | with_reducible apply Work.underrun | with_reducible apply Work.startPresentation | with_reducible apply Work.onPort

theorem Work.autoCall {s₀ s₁ : State} (h : Work s₀ s₁) (k : Nat) : Work s₀ (s₁.autoCall k) := by
  unfold State.autoCall
  repeat' first | assumption | split | with_reducible apply Work.makeCall

theorem Work.toIdle {s₀ s₁ : State} (h : Work s₀ s₁) (k : Nat) : Work s₀ (s₁.toIdle k) := by
  unfold State.toIdle
  dsimp only
  repeat' first | assumption | split | with_reducible apply Work.onPort | with_reducible apply Work.darken | with_reducible apply Work.autoCall

theorem Work.completePresentation {s₀ s₁ : State} (h : Work s₀ s₁) (k : Nat) : Work s₀ (s₁.completePresentation k) := by
  unfold State.completePresentation
  repeat' first | assumption | split | with_reducible apply Work.onPort | with_reducible apply Work.toIdle

theorem Work.joinPresentation {s₀ s₁ : State} (h : Work s₀ s₁) (k : Nat) (pr : Presentation) (t : PickTask) : Work s₀ (s₁.joinPresentation k pr t) := by
  unfold State.joinPresentation
  repeat' first | assumption | split | with_reducible apply Work.onPort | with_reducible apply Work.rebuild

theorem Work.joinStops {s₀ s₁ : State} (h : Work s₀ s₁) (k carrier : Nat) (t : PickTask) : Work s₀ (s₁.joinStops k carrier t) := by
  unfold State.joinStops
  dsimp only
  repeat' first | assumption | split | with_reducible apply Work.onCarousel | with_reducible apply Work.autoCall | with_reducible apply Work.creations | (intro _; rfl)

theorem Work.placeTask {s₀ s₁ : State} (h : Work s₀ s₁) (k carrier : Nat) (t : PickTask) : Work s₀ (s₁.placeTask k carrier t) := by
  unfold State.placeTask
  repeat' first | assumption | split | with_reducible apply Work.joinPresentation | with_reducible apply Work.joinStops

theorem Work.returnStop {s₀ s₁ : State} (h : Work s₀ s₁) (k : Nat) (x : Stop) : Work s₀ (s₁.returnStop k x) := by
  unfold State.returnStop
  dsimp only
  repeat' first | assumption | split | with_reducible apply Work.onCarousel | with_reducible apply Work.autoCall | (intro _; rfl)

theorem Work.removeTask {s₀ s₁ : State} (h : Work s₀ s₁) (slot : Nat) : Work s₀ (s₁.removeTask slot) := by
  unfold State.removeTask
  dsimp only
  repeat' first | assumption | split | with_reducible apply Work.onCarousel | with_reducible apply Work.onPort | with_reducible apply Work.rebuild | with_reducible apply Work.completePresentation | (intro _; rfl)

theorem Work.setOrders {s₀ s₁ : State} (h : Work s₀ s₁) (os : List Order) : Work s₀ (s₁.setOrders os) := by
  unfold State.setOrders
  repeat' first | assumption | split | with_reducible apply Work.planner

theorem Work.onOrder {s₀ s₁ : State} (h : Work s₀ s₁) (id : Nat) (f : Order → Order) : Work s₀ (s₁.onOrder id f) := by
  unfold State.onOrder
  repeat' first | assumption | split | with_reducible apply Work.setOrders

theorem Work.onLine {s₀ s₁ : State} (h : Work s₀ s₁) (id n : Nat) (f : Line → Line) : Work s₀ (s₁.onLine id n f) := by
  unfold State.onLine
  repeat' first | assumption | split | with_reducible apply Work.onOrder

theorem Work.judgeLane {s₀ s₁ : State} (h : Work s₀ s₁) (j : Nat) : Work s₀ (s₁.judgeLane j) := by
  unfold State.judgeLane
  dsimp only
  repeat' first | assumption | split | with_reducible apply Work.onLane | with_reducible apply Work.notify

theorem Work.judgeLaneOf {s₀ s₁ : State} (h : Work s₀ s₁) (o : Order) : Work s₀ (s₁.judgeLaneOf o) := by
  unfold State.judgeLaneOf
  repeat' first | assumption | split | with_reducible apply Work.judgeLane

theorem Work.setOrderState {s₀ s₁ : State} (h : Work s₀ s₁) (id : Nat) (x : OrderState) : Work s₀ (s₁.setOrderState id x) := by
  unfold State.setOrderState
  dsimp only
  repeat' first | assumption | split | with_reducible apply Work.onOrder | with_reducible apply Work.judgeLaneOf

theorem Work.completionTest {s₀ s₁ : State} (h : Work s₀ s₁) (id : Nat) : Work s₀ (s₁.completionTest id) := by
  unfold State.completionTest
  repeat' first | assumption | split | with_reducible apply Work.notify | with_reducible apply Work.setOrderState

theorem Work.testIfSettled {s₀ s₁ : State} (h : Work s₀ s₁) (id n : Nat) : Work s₀ (s₁.testIfSettled id n) := by
  unfold State.testIfSettled
  repeat' first | assumption | split | with_reducible apply Work.completionTest

theorem Work.takeUp {s₀ s₁ : State} (h : Work s₀ s₁) : Work s₀ (s₁.takeUp) := by
  unfold State.takeUp
  repeat' first | assumption | split | with_reducible apply Work.setOrderState | with_reducible apply Work.hand

theorem Work.markLine {s₀ s₁ : State} (h : Work s₀ s₁) (id n : Nat) (excluded : Option Nat) : Work s₀ (s₁.markLine id n excluded) := by
  unfold State.markLine
  dsimp only
  repeat' first | assumption | split | with_reducible apply Work.onLine | with_reducible apply Work.hand

theorem Work.clearMark {s₀ s₁ : State} (h : Work s₀ s₁) (id n : Nat) : Work s₀ (s₁.clearMark id n) := by
  unfold State.clearMark
  repeat' first | assumption | split | with_reducible apply Work.onLine | with_reducible apply Work.take

theorem Work.logFinding {s₀ s₁ : State} (h : Work s₀ s₁) (slot : Nat) (kind : Finding) (expected observed other : Option Nat) : Work s₀ (s₁.logFinding slot kind expected observed other) := by
  unfold State.logFinding
  dsimp only
  repeat' first | assumption | split | with_reducible apply Work.notify | with_reducible apply Work.logged

theorem Work.recontent {s₀ s₁ : State} (h : Work s₀ s₁) (i : Nat) (x : Content)
    (hx : TablesOk s₀ → TagsDistinct s₁ → s₁.tagFree i x.tag) : Work s₀ (s₁.recontent i x) := h.writeSlot i _ hx

theorem Work.refresh {s₀ s₁ : State} (h : Work s₀ s₁) (i : Nat) (x : Content)
    (hx : TablesOk s₀ → TagsDistinct s₁ → s₁.tagFree i x.tag) : Work s₀ (s₁.refresh i x) := h.writeSlot i _ hx

/-- A slot is emptied. -/
theorem Work.empties {s₀ s₁ : State} (h : Work s₀ s₁) (i : Nat) : Work s₀ (s₁.refresh i .empty) :=
  h.refresh i _ fun _ _ => State.tagFree_none _ _

/-- A slot keeps its tag. -/
theorem Work.keepsTag {s₀ s₁ : State} (h : Work s₀ s₁) (i : Nat) (x : Content)
    (hx : x.tag = (s₁.slot i).content.tag) : Work s₀ (s₁.recontent i x) :=
  h.recontent i x fun _ g => hx ▸ g.own i

/-- A slot keeps its tag, and its fresh mark is set. -/
theorem Work.freshens {s₀ s₁ : State} (h : Work s₀ s₁) (i : Nat) (x : Content)
    (hx : x.tag = (s₁.slot i).content.tag) : Work s₀ (s₁.refresh i x) :=
  h.refresh i x fun _ g => hx ▸ g.own i

theorem Work.cancelReservation {s₀ s₁ : State} (h : Work s₀ s₁) (i : Nat) : Work s₀ (s₁.cancelReservation i) := by
  unfold State.cancelReservation
  repeat' first | assumption | split | with_reducible apply Work.removeTask | with_reducible apply Work.onLine | with_reducible apply Work.markLine

theorem Work.releaseSlot {s₀ s₁ t : State} (h : Work s₀ s₁) {i order line : Nat}
    (ht : s₁.releaseSlot i order line = some t) : Work s₀ t := by
  unfold State.releaseSlot at ht
  split at ht
  · rename_i hc
    split at ht <;> cases ht
    exact (((h.keepsTag _ _ (by rw [hc]; rfl)).removeTask _).onLine _ _ _).hand _
  all_goals cases ht

theorem Work.tryRelease {s₀ s₁ : State} (h : Work s₀ s₁) (i order line : Nat) :
    Work s₀ (s₁.tryRelease i order line) := by
  unfold State.tryRelease
  cases e : s₁.releaseSlot i order line with
  | none => exact h
  | some t => exact h.releaseSlot e

/-- The tag of a put-away choice with a slot is recorded nowhere (R11). -/
theorem State.choosePutaway_free {s : State} {k tag article week year i p : Nat}
    (h : s.choosePutaway k tag article week year = .chosen i p) : s.tagSlot tag = none := by
  cases e : s.tagSlot tag with
  | none => rfl
  | some j =>
    exfalso
    simp only [State.choosePutaway, e, Option.isSome_some, if_true] at h
    repeat' split at h
    all_goals cases h

theorem Work.putawayChoice {s₀ s₁ : State} (h : Work s₀ s₁) (k tag article week year : Nat) :
    Work s₀ (s₁.putawayChoice k tag article week year).1 := by
  unfold State.putawayChoice
  split
  · exact h
  · rename_i i p hc
    have := h.refresh i (.inbound ⟨tag, article, p⟩) fun _ _ => State.tagSlot_none (State.choosePutaway_free hc) i
    dsimp only
    split
    · exact this.notify _
    · exact this

theorem Work.withdraw {s₀ s₁ : State} (h : Work s₀ s₁) (i : Nat) : Work s₀ (s₁.withdraw i) := by
  unfold State.withdraw
  repeat' first | assumption | split | with_reducible apply Work.empties

/-- The record of slot `i` moves to slot `t`. -/
theorem Work.moves {s₀ s₁ : State} (h : Work s₀ s₁) {i t : Nat} (x : Content) (hx : x.tag = (s₁.slot i).content.tag) :
    Work s₀ ((s₁.refresh t x).refresh i .empty) :=
  h.writeSlots t i _ _ fun _ g => g.setSlots (fun _ q => .inr (hx ▸ q)) (fun _ q => by cases q) (fun _ _ q => by cases q)

theorem Work.placeConflict {s₀ s₁ : State} (h : Work s₀ s₁) (i t : Nat) (tyre : Tyre)
    (hi : (s₁.slot i).content = .inbound tyre) : Work s₀ (s₁.placeConflict i t tyre) :=
  ((h.cancelReservation _).logFinding _ _ _ _ _).moves _ (by simp [hi]; rfl)

theorem Work.placement {s₀ s₁ u : State} (h : Work s₀ s₁) {i t : Nat} (hu : s₁.placement i t = some u) :
    Work s₀ u := by
  unfold State.placement at hu
  split at hu
  · rename_i hc
    (repeat' split at hu) <;> cases hu
    · exact (h.freshens _ _ (by rw [hc]; rfl)).hand _
    · exact (h.moves _ (by rw [hc]; rfl)).hand _
    · exact h.placeConflict _ _ _ hc
  all_goals cases hu

theorem Work.reserveSlot {s₀ s₁ : State} (h : Work s₀ s₁) (order line : Nat) (m : Member) :
    Work s₀ (s₁.reserveSlot order line m) := by
  unfold State.reserveSlot
  split
  · rename_i hc; exact h.keepsTag _ _ (by rw [hc]; rfl)
  all_goals exact h

theorem Work.joinMember {s₀ s₁ : State} (h : Work s₀ s₁) (order line lane window : Nat) (m : Member) : Work s₀ (s₁.joinMember order line lane window m) := by
  unfold State.joinMember
  repeat' first | assumption | split | with_reducible apply Work.onLine | with_reducible apply Work.placeTask

theorem Work.reserveMembers {s₀ s₁ : State} (h : Work s₀ s₁) (order line lane window : Nat) (ms : List Member) : Work s₀ (s₁.reserveMembers order line lane window ms) := by
  unfold State.reserveMembers
  repeat' first | assumption | split | rintro _ _ _ | with_reducible apply Work.joinMember | with_reducible apply Work.reserveSlot | with_reducible apply Work.fold

theorem Work.joinExpected {s₀ s₁ : State} (h : Work s₀ s₁) (order tag : Nat) : Work s₀ (s₁.joinExpected order tag) := by
  unfold State.joinExpected
  repeat' first | assumption | split | with_reducible apply Work.onLane | with_reducible apply Work.judgeLane

theorem Work.countPick {s₀ s₁ : State} (h : Work s₀ s₁) (order line slot tag p : Nat) : Work s₀ (s₁.countPick order line slot tag p) := by
  unfold State.countPick
  repeat' first | assumption | split | with_reducible apply Work.onLine | with_reducible apply Work.onOrder | with_reducible apply Work.joinExpected | with_reducible apply Work.testIfSettled

theorem Work.donePick {s₀ s₁ : State} (h : Work s₀ s₁) (given donePosition : Nat) : Work s₀ (s₁.donePick given donePosition) := by
  unfold State.donePick
  dsimp only
  repeat' first | assumption | split | with_reducible apply Work.onPort | with_reducible apply Work.rebuild | with_reducible apply Work.completePresentation | with_reducible apply Work.removeTask

theorem Work.holdMissing {s₀ s₁ : State} (h : Work s₀ s₁) (i : Nat) : Work s₀ (s₁.holdMissing i) := by
  unfold State.holdMissing
  split
  · rename_i hc; exact (h.cancelReservation _).keepsTag _ _ (by rw [State.cancelReservation_slot, hc]; rfl)
  · rename_i hc; exact (h.cancelReservation _).keepsTag _ _ (by rw [State.cancelReservation_slot, hc]; rfl)
  all_goals exact h

theorem Work.holdUnexpected {s₀ s₁ : State} (h : Work s₀ s₁) (i tag : Nat)
    (hf : TablesOk s₀ → s₁.tagFree i (some tag)) : Work s₀ (s₁.holdUnexpected i tag) := by
  have held := h.recontent i (.held (.unexpected tag)) fun ht _ => hf ht
  unfold State.holdUnexpected
  repeat' split
  all_goals first | exact held | exact held.hand _ | exact h

theorem Work.holdSwapped {s₀ s₁ : State} (h : Work s₀ s₁) (i : Nat) : Work s₀ (s₁.holdSwapped i) := by
  unfold State.holdSwapped
  split
  · rename_i hc; exact (h.cancelReservation _).keepsTag _ _ (by rw [State.cancelReservation_slot, hc]; rfl)
  · rename_i hc; exact (h.cancelReservation _).keepsTag _ _ (by rw [State.cancelReservation_slot, hc]; rfl)
  all_goals exact h

theorem Work.exchange {s₀ s₁ : State} (h : Work s₀ s₁) (x y : Nat) : Work s₀ (s₁.exchange x y) :=
  h.writeSlots x y _ _ fun _ g => g.setSlots (fun _ => .inr) (fun _ => .inl) fun tag hy hx => g x y tag hx hy

theorem Work.tellPort {s₀ s₁ : State} (h : Work s₀ s₁) (i : Nat) (event : CarouselNo → Instr) : Work s₀ (s₁.tellPort i event) := by
  unfold State.tellPort
  repeat' first | assumption | split | with_reducible apply Work.hand

theorem Content.vacated_tag (x : Content) : x.vacated.tag = none := by cases x <;> rfl

theorem Work.foreignMove {s₀ s₁ : State} (h : Work s₀ s₁) (t v o : Nat) (hv : TablesOk s₀ → (s₁.slot v).content.tag = some o) :
    Work s₀ (s₁.foreignMove t v o) :=
  ((((h.cancelReservation _).tellPort _ _).cancelReservation _).tellPort _ _).writeSlots t v _ _ fun ht g =>
    g.setSlots
      (fun tag q => .inr (by
        simp only [State.tellPort_slot, State.cancelReservation_slot]
        exact (hv ht).trans q))
      (fun tag q => by rw [Content.vacated_tag] at q; cases q)
      (fun tag _ q => by rw [Content.vacated_tag] at q; cases q)

/-- The tag that a LOAD-SLOTS record carries is recorded in no other slot (R24). -/
theorem State.loadOutcome_free {s : State} {r : SlotArg} {x : Content} (h : s.loadOutcome r = .done)
    (hx : loadContent r = some x) : s.tagFree r.slot x.tag := by
  unfold State.loadOutcome at h
  repeat' split at h
  all_goals cases h
  rename_i h2 _
  by_cases hc : loadCarries r = true
  · simp only [hc, Bool.true_and, Bool.or_eq_true, not_or, Bool.not_eq_true, Option.isSome_eq_false_iff,
      Option.isNone_iff_eq_none] at h2
    have free := State.tagElsewhere_none h2.2
    unfold loadContent at hx
    dsimp only at hx
    split at hx <;> cases hx
    · exact State.tagFree_none _ _
    · exact free
    · exact free
    · exact State.tagFree_none _ _
  · unfold loadCarries at hc
    unfold loadContent at hx
    dsimp only at hx
    split at hx <;> cases hx
    · exact State.tagFree_none _ _
    · simp_all
    · simp_all
    · exact State.tagFree_none _ _

theorem Work.loadSlot {s₀ s₁ : State} (h : Work s₀ s₁) (r : SlotArg) : Work s₀ (s₁.loadSlot r) := by
  unfold State.loadSlot
  split
  · exact (h.refresh _ _ fun _ _ => State.loadOutcome_free ‹_› ‹_›).hand _
  · exact h.refresh _ _ fun _ _ => State.loadOutcome_free ‹_› ‹_›
  · exact h

theorem Work.shortLine {s₀ s₁ : State} (h : Work s₀ s₁) (o : Order) (n : Nat) (cause : ShortCause) : Work s₀ (s₁.shortLine o n cause) := by
  unfold State.shortLine
  dsimp only
  repeat' first | assumption | split | with_reducible apply Work.onLine | with_reducible apply Work.notify

theorem Work.settleLine {s₀ s₁ : State} (h : Work s₀ s₁) (o : Order) (n : Nat) : Work s₀ (s₁.settleLine o n) := by
  unfold State.settleLine
  repeat' first | assumption | split | with_reducible apply Work.onLine | with_reducible apply Work.shortLine

theorem Work.stepLine {s₀ s₁ : State} (h : Work s₀ s₁) (o : Order) (n : Nat) : Work s₀ (s₁.stepLine o n) := by
  unfold State.stepLine
  dsimp only
  repeat' first | assumption | split | with_reducible apply Work.onLine | with_reducible apply Work.reserveMembers | with_reducible apply Work.clearMark | with_reducible apply Work.settleLine

theorem Work.firstStep {s₀ s₁ : State} (h : Work s₀ s₁) (o : Order) (l : Line) : Work s₀ (s₁.firstStep o l) := by
  unfold State.firstStep
  repeat' first | assumption | split | with_reducible apply Work.onLine | with_reducible apply Work.notify | with_reducible apply Work.stepLine

theorem Work.planOn {s₀ s₁ : State} (h : Work s₀ s₁) (o : Order) (n : Nat) : Work s₀ (s₁.planOn o n) := by
  unfold State.planOn
  dsimp only
  repeat' first | assumption | split | with_reducible apply Work.onOrder | with_reducible apply Work.hand | with_reducible apply Work.setOrderState | with_reducible apply Work.completionTest | with_reducible apply Work.takeUp

theorem Work.planningStep {s₀ s₁ : State} (h : Work s₀ s₁) (id n : Nat) : Work s₀ (s₁.planningStep id n) := by
  unfold State.planningStep
  repeat' first | assumption | split | with_reducible apply Work.stepLine | with_reducible apply Work.testIfSettled | with_reducible apply Work.firstStep | with_reducible apply Work.planOn

theorem Work.replan {s₀ s₁ : State} (h : Work s₀ s₁) (id n : Nat) (cause : ReplanCause) : Work s₀ (s₁.replan id n cause) := by
  unfold State.replan
  repeat' first | assumption | split | with_reducible apply Work.handFirst

theorem Work.wakeUp {s₀ s₁ : State} (h : Work s₀ s₁) (article : Nat) : Work s₀ (s₁.wakeUp article) := by
  unfold State.wakeUp
  repeat' first | assumption | split | with_reducible apply Work.hand

theorem Work.waitExpiry {s₀ s₁ : State} (h : Work s₀ s₁) (id n : Nat) : Work s₀ (s₁.waitExpiry id n) := by
  unfold State.waitExpiry
  repeat' first | assumption | split | with_reducible apply Work.shortLine | with_reducible apply Work.testIfSettled

theorem Work.onOpenWaiting {s₀ s₁ : State} (h : Work s₀ s₁) (h : Nat) (f : WaitingChain → WaitingChain) : Work s₀ (s₁.onOpenWaiting h f) := by
  unfold State.onOpenWaiting
  repeat' first | assumption | split | with_reducible apply Work.setWaiting

theorem Work.bindLane {s₀ s₁ : State} (h : Work s₀ s₁) (j chain : Nat) (closed : Bool) (bound : List Nat) (quantity : Nat) : Work s₀ (s₁.bindLane j chain closed bound quantity) := by
  unfold State.bindLane
  repeat' first | assumption | split | with_reducible apply Work.onLane

theorem Work.bindUnchained {s₀ s₁ : State} (h : Work s₀ s₁) (id t : Nat) : Work s₀ (s₁.bindUnchained id t).1 := by
  unfold State.bindUnchained
  repeat' first | assumption | split | with_reducible apply Work.bindLane

theorem Work.bindChained {s₀ s₁ : State} (h : Work s₀ s₁) (id h t : Nat) (continues : Bool) : Work s₀ (s₁.bindChained id h t continues).1 := by
  unfold State.bindChained
  repeat' first | assumption | split | with_reducible apply Work.onLane | with_reducible apply Work.onOpenWaiting | with_reducible apply Work.bindLane | with_reducible apply Work.setWaiting

theorem Work.bindOrder {s₀ s₁ : State} (h : Work s₀ s₁) (id chain t : Nat) (continues : Bool) : Work s₀ (s₁.bindOrder id chain t continues).1 := by
  unfold State.bindOrder
  repeat' first | assumption | split | with_reducible apply Work.bindUnchained | with_reducible apply Work.bindChained

theorem Work.acceptOrder {s₀ s₁ : State} (h : Work s₀ s₁) (o : Order) : Work s₀ (s₁.acceptOrder o) := by
  unfold State.acceptOrder
  dsimp only
  repeat' first | assumption | split | with_reducible apply Work.judgeLane | with_reducible apply Work.takeUp | with_reducible apply Work.planner

theorem Work.stopPlanning {s₀ s₁ : State} (h : Work s₀ s₁) (id : Nat) : Work s₀ (s₁.stopPlanning id) := by
  unfold State.stopPlanning
  repeat' first | assumption | split | with_reducible apply Work.handed

theorem Work.releaseMembers {s₀ s₁ : State} (h : Work s₀ s₁) (o : Order) : Work s₀ (s₁.releaseMembers o) := by
  unfold State.releaseMembers
  repeat' first | assumption | split | rintro _ _ _ | with_reducible apply Work.tryRelease | with_reducible apply Work.fold

theorem Work.leaveWaiting {s₀ s₁ : State} (h : Work s₀ s₁) (o : Order) : Work s₀ (s₁.leaveWaiting o) := by
  unfold State.leaveWaiting
  repeat' first | assumption | split | with_reducible apply Work.setWaiting

theorem Work.dropOrder {s₀ s₁ : State} (h : Work s₀ s₁) (id : Nat) : Work s₀ (s₁.dropOrder id) := by
  unfold State.dropOrder
  repeat' first | assumption | split | with_reducible apply Work.setOrders

theorem Work.closeOrder {s₀ s₁ : State} (h : Work s₀ s₁) (o : Order) (x : OrderState) : Work s₀ (s₁.closeOrder o x) := by
  unfold State.closeOrder
  dsimp only
  repeat' first | assumption | split | with_reducible apply Work.onOrder | with_reducible apply Work.stopPlanning | with_reducible apply Work.releaseMembers | with_reducible apply Work.setOrderState | with_reducible apply Work.leaveWaiting | with_reducible apply Work.dropOrder | with_reducible apply Work.takeUp

theorem Work.closeChain {s₀ s₁ : State} (h : Work s₀ s₁) (o : Order) : Work s₀ (s₁.closeChain o) := by
  unfold State.closeChain
  repeat' first | assumption | split | with_reducible apply Work.onLane | with_reducible apply Work.judgeLane | with_reducible apply Work.setWaiting

theorem Work.settleOrder {s₀ s₁ : State} (h : Work s₀ s₁) (id : Nat) : Work s₀ (s₁.settleOrder id) := by
  unfold State.settleOrder
  repeat' first | assumption | split | with_reducible apply Work.onOrder | with_reducible apply Work.completionTest

theorem Work.settleArrival {s₀ s₁ : State} (h : Work s₀ s₁) (j : Nat) (e : Entry) : Work s₀ (s₁.settleArrival j e) := by
  unfold State.settleArrival
  dsimp only
  repeat' first | assumption | split | with_reducible apply Work.onLane | with_reducible apply Work.notify | with_reducible apply Work.settleOrder | with_reducible apply Work.judgeLane

theorem Work.foreignArrival {s₀ s₁ : State} (h : Work s₀ s₁) (j tag : Nat) : Work s₀ (s₁.foreignArrival j tag) := by
  unfold State.foreignArrival
  repeat' first | assumption | split | with_reducible apply Work.onLane | with_reducible apply Work.notify | with_reducible apply Work.judgeLane

theorem Work.arrival {s₀ s₁ : State} (h : Work s₀ s₁) (j tag : Nat) : Work s₀ (s₁.arrival j tag) := by
  unfold State.arrival
  repeat' first | assumption | split | with_reducible apply Work.settleArrival | with_reducible apply Work.foreignArrival

theorem Work.loseEntry {s₀ s₁ : State} (h : Work s₀ s₁) (j i : Nat) (e : Entry) : Work s₀ (s₁.loseEntry j i e) := by
  unfold State.loseEntry
  repeat' first | assumption | split | with_reducible apply Work.onLane | with_reducible apply Work.notify | with_reducible apply Work.judgeLane

theorem Work.transitExpiry {s₀ s₁ : State} (h : Work s₀ s₁) (j i : Nat) : Work s₀ (s₁.transitExpiry j i) := by
  unfold State.transitExpiry
  repeat' first | assumption | split | with_reducible apply Work.loseEntry

theorem Work.openLane {s₀ s₁ : State} (h : Work s₀ s₁) (j : Nat) : Work s₀ (s₁.openLane j) := by
  unfold State.openLane
  repeat' first | assumption | split | with_reducible apply Work.queueField | with_reducible apply Work.onLane

theorem Work.forceClose {s₀ s₁ : State} (h : Work s₀ s₁) (id : Nat) : Work s₀ (s₁.forceClose id) := by
  unfold State.forceClose
  repeat' first | assumption | split | with_reducible apply Work.closeOrder

theorem Work.forceRelease {s₀ s₁ : State} (h : Work s₀ s₁) (j : Nat) : Work s₀ (s₁.forceRelease j) := by
  unfold State.forceRelease
  repeat' first | assumption | split | rintro _ _ _ | with_reducible apply Work.forceClose | with_reducible apply Work.onLane | with_reducible apply Work.judgeLane | with_reducible apply Work.openLane | with_reducible apply Work.fold

theorem Work.queueOrder {s₀ s₁ : State} (h : Work s₀ s₁) (j id : Nat) : Work s₀ (s₁.queueOrder j id) := by
  unfold State.queueOrder
  repeat' first | assumption | split | with_reducible apply Work.onOrder | with_reducible apply Work.setOrderState

theorem Work.offerTo {s₀ s₁ : State} (h : Work s₀ s₁) (j : Nat) (o : Order) : Work s₀ (s₁.offerTo j o) := by
  unfold State.offerTo
  repeat' first | assumption | split | rintro _ _ _ | with_reducible apply Work.queueOrder | with_reducible apply Work.setWaiting | with_reducible apply Work.bindLane | with_reducible apply Work.fold

theorem Work.offerLane {s₀ s₁ : State} (h : Work s₀ s₁) (j : Nat) : Work s₀ (s₁.offerLane j) := by
  unfold State.offerLane
  repeat' first | assumption | split | with_reducible apply Work.offerTo | with_reducible apply Work.takeUp

theorem Work.emptyLane {s₀ s₁ : State} (h : Work s₀ s₁) (j : Nat) : Work s₀ (s₁.emptyLane j) := by
  unfold State.emptyLane
  dsimp only
  repeat' first | assumption | split | with_reducible apply Work.notify | with_reducible apply Work.setOrders | with_reducible apply Work.setLane | with_reducible apply Work.offerLane

theorem Work.openFailed {s₀ s₁ : State} (h : Work s₀ s₁) (j : Nat) : Work s₀ (s₁.openFailed j) := by
  unfold State.openFailed
  dsimp only
  repeat' first | assumption | split | with_reducible apply Work.onLane | with_reducible apply Work.notify

theorem Work.stray {s₀ s₁ : State} (h : Work s₀ s₁) (k : Nat) : Work s₀ (s₁.stray k) := by
  unfold State.stray
  repeat' first | assumption | split | with_reducible apply Work.onPort

theorem Work.strayWait {s₀ s₁ : State} (h : Work s₀ s₁) (k : Nat) : Work s₀ (s₁.strayWait k) := by
  unfold State.strayWait
  repeat' first | assumption | split | with_reducible apply Work.stray | with_reducible apply Work.setMessage

theorem Work.refuseScan {s₀ s₁ : State} (h : Work s₀ s₁) (k : Nat) : Work s₀ (s₁.refuseScan k) := by
  unfold State.refuseScan
  repeat' first | assumption | split | with_reducible apply Work.onPort | with_reducible apply Work.setMessage

theorem Work.considerSubstitution {s₀ s₁ : State} (h : Work s₀ s₁) (k : CarouselNo) (pr : Presentation) (u article : Nat) : Work s₀ (s₁.considerSubstitution k pr u article) := by
  unfold State.considerSubstitution
  repeat' first | assumption | split | with_reducible apply Work.hand | with_reducible apply Work.refuseScan

theorem Work.scanOnCarrier {s₀ s₁ : State} (h : Work s₀ s₁) (k : CarouselNo) (pr : Presentation) (tag i : Nat) : Work s₀ (s₁.scanOnCarrier k pr tag i) := by
  unfold State.scanOnCarrier
  repeat' first | assumption | split | with_reducible apply Work.hand | with_reducible apply Work.considerSubstitution | with_reducible apply Work.refuseScan

theorem Work.presentScan {s₀ s₁ : State} (h : Work s₀ s₁) (k : CarouselNo) (pr : Presentation) (tag : Nat) : Work s₀ (s₁.presentScan k pr tag) := by
  unfold State.presentScan
  repeat' first | assumption | split | with_reducible apply Work.refuseScan | with_reducible apply Work.scanOnCarrier

theorem Work.pick {s₀ s₁ u : State} (h : Work s₀ s₁) {tag order line : Nat}
    (hu : s₁.pick tag order line = some u) : Work s₀ u := by
  unfold State.pick at hu
  (repeat' split at hu) <;> cases hu
  exact ((h.empties _).countPick _ _ _ _ _).donePick _ _

theorem Work.substitute {s₀ s₁ t : State} (h : Work s₀ s₁) {u r : Nat} (ht : s₁.substitute u r = some t) :
    Work s₀ t := by
  unfold State.substitute at ht
  split at ht
  · rename_i hu hr
    (repeat' split at ht) <;> cases ht
    refine ((((h.empties _).keepsTag _ _ ?_).countPick _ _ _ _ _).donePick _ _).hand _
    unfold State.refresh
    rw [State.writeSlot_read, if_neg (fun q => by rw [q, hu] at hr; cases hr), hr]
    rfl
  · cases ht

theorem Work.takePick {s₀ s₁ : State} (h : Work s₀ s₁) (k tag order line : Nat) :
    Work s₀ (s₁.takePick k tag order line) := by
  unfold State.takePick
  split
  · exact h.pick ‹_›
  · exact h.refuseScan k

theorem Work.takeSubstitution {s₀ s₁ : State} (h : Work s₀ s₁) (k u r : Nat) :
    Work s₀ (s₁.takeSubstitution k u r) := by
  unfold State.takeSubstitution
  split
  · exact h.substitute ‹_›
  · exact h.refuseScan k

theorem Work.clearPutaway {s₀ s₁ : State} (h : Work s₀ s₁) (k : Nat) : Work s₀ (s₁.clearPutaway k) := by
  unfold State.clearPutaway
  repeat' first | assumption | split | with_reducible apply Work.onPort

theorem Work.startPlacing {s₀ s₁ : State} (h : Work s₀ s₁) (k carrier : Nat) : Work s₀ (s₁.startPlacing k carrier) := by
  unfold State.startPlacing
  repeat' first | assumption | split | with_reducible apply Work.onPort | with_reducible apply Work.rebuild

theorem Work.putawayUnavailable {s₀ s₁ : State} (h : Work s₀ s₁) (k : Nat) (a : Putaway) : Work s₀ (s₁.putawayUnavailable k a) := by
  unfold State.putawayUnavailable
  repeat' first | assumption | split | with_reducible apply Work.withdraw | with_reducible apply Work.clearPutaway | with_reducible apply Work.setMessage | with_reducible apply Work.notify | with_reducible apply Work.toIdle

theorem Work.storeCall {s₀ s₁ : State} (h : Work s₀ s₁) (k : Nat) : Work s₀ (s₁.storeCall k) := by
  unfold State.storeCall
  dsimp only
  repeat' first | assumption | split | with_reducible apply Work.storeCallRequest | with_reducible apply Work.startPlacing | with_reducible apply Work.onPort | with_reducible apply Work.putawayUnavailable

theorem Work.setPutaway {s₀ s₁ : State} (h : Work s₀ s₁) (k : Nat) (a : Putaway) : Work s₀ (s₁.setPutaway k a) := by
  unfold State.setPutaway
  repeat' first | assumption | split | with_reducible apply Work.onPort

theorem Work.beginPutaway {s₀ s₁ : State} (h : Work s₀ s₁) (k tag article week year : Nat) : Work s₀ (s₁.beginPutaway k tag article week year) := by
  unfold State.beginPutaway
  dsimp only
  repeat' first | assumption | split | with_reducible apply Work.putawayChoice | with_reducible apply Work.setPutaway | with_reducible apply Work.storeCall | with_reducible apply Work.setMessage | with_reducible apply Work.notify

theorem Work.scanTag {s₀ s₁ : State} (h : Work s₀ s₁) (k : CarouselNo) (tag article week year : Nat) : Work s₀ (s₁.scanTag k tag article week year) := by
  unfold State.scanTag
  repeat' first | assumption | split | with_reducible apply Work.stray | with_reducible apply Work.presentScan | with_reducible apply Work.beginPutaway | with_reducible apply Work.strayWait

theorem Work.placeAt {s₀ s₁ : State} (h : Work s₀ s₁) (k carrier position : Nat) :
    Work s₀ (s₁.placeAt k carrier position) := by
  unfold State.placeAt
  split
  · exact h
  · split
    · exact ((h.placement ‹_›).clearPutaway k).toIdle k
    · exact h

theorem Work.placedReport {s₀ s₁ : State} (h : Work s₀ s₁) (k position : Nat) : Work s₀ (s₁.placedReport k position) := by
  unfold State.placedReport
  repeat' first | assumption | split | with_reducible apply Work.placeAt | with_reducible apply Work.stray

theorem Work.breakPresentation {s₀ s₁ : State} (h : Work s₀ s₁) (k : Nat) (pr : Presentation) (bypass : Nat) (m : Message) : Work s₀ (s₁.breakPresentation k pr bypass m) := by
  unfold State.breakPresentation
  repeat' first | assumption | split | with_reducible apply Work.returnStop | with_reducible apply Work.onPort | with_reducible apply Work.darken

theorem Work.abandonPutaway {s₀ s₁ : State} (h : Work s₀ s₁) (k : Nat) (cause : PutawayCause) : Work s₀ (s₁.abandonPutaway k cause) := by
  unfold State.abandonPutaway
  repeat' first | assumption | split | with_reducible apply Work.withdraw | with_reducible apply Work.clearPutaway | with_reducible apply Work.notify

theorem Work.skipCarrier {s₀ s₁ : State} (h : Work s₀ s₁) (k : Nat) : Work s₀ (s₁.skipCarrier k) := by
  unfold State.skipCarrier
  repeat' first | assumption | split | with_reducible apply Work.breakPresentation | with_reducible apply Work.toIdle

theorem Work.presentationExpiry {s₀ s₁ : State} (h : Work s₀ s₁) (k : Nat) : Work s₀ (s₁.presentationExpiry k) := by
  unfold State.presentationExpiry
  repeat' first | assumption | split | with_reducible apply Work.breakPresentation | with_reducible apply Work.notify | with_reducible apply Work.toIdle | with_reducible apply Work.abandonPutaway | with_reducible apply Work.darken

theorem Work.carrierLeft {s₀ s₁ : State} (h : Work s₀ s₁) (k : Nat) : Work s₀ (s₁.carrierLeft k) := by
  unfold State.carrierLeft
  repeat' first | assumption | split | with_reducible apply Work.breakPresentation | with_reducible apply Work.toIdle | with_reducible apply Work.abandonPutaway | with_reducible apply Work.darken

theorem Work.dropWork {s₀ s₁ : State} (h : Work s₀ s₁) (k : Nat) : Work s₀ (s₁.dropWork k) := by
  unfold State.dropWork
  repeat' first | assumption | split | with_reducible apply Work.returnStop | with_reducible apply Work.abandonPutaway

theorem Work.portAbsent {s₀ s₁ : State} (h : Work s₀ s₁) (k : Nat) : Work s₀ (s₁.portAbsent k) := by
  unfold State.portAbsent
  repeat' first | assumption | split | with_reducible apply Work.onPort | with_reducible apply Work.dropWork | with_reducible apply Work.darken | with_reducible apply Work.notify

theorem Work.arrivalAt {s₀ s₁ : State} (h : Work s₀ s₁) (k carrier : Nat) (stop : Option Stop) : Work s₀ (s₁.arrivalAt k carrier stop) := by
  unfold State.arrivalAt
  repeat' first | assumption | split | with_reducible apply Work.startPresentation | with_reducible apply Work.toIdle | with_reducible apply Work.startPlacing | with_reducible apply Work.storeCall | with_reducible apply Work.returnStop

theorem Work.callFailed {s₀ s₁ : State} (h : Work s₀ s₁) (k : Nat) : Work s₀ (s₁.callFailed k) := by
  unfold State.callFailed
  repeat' first | assumption | split | with_reducible apply Work.abandonPutaway | with_reducible apply Work.toIdle

theorem Work.rechoose {s₀ s₁ : State} (h : Work s₀ s₁) (k : Nat) (a : Putaway) (i : Nat) : Work s₀ (s₁.rechoose k a i) := by
  unfold State.rechoose
  dsimp only
  repeat' first | assumption | split | with_reducible apply Work.setPutaway | with_reducible apply Work.rebuild | with_reducible apply Work.onPort | with_reducible apply Work.storeCall

theorem Work.withdrawnNotice {s₀ s₁ : State} (h : Work s₀ s₁) (k slot : Nat) : Work s₀ (s₁.withdrawnNotice k slot) := by
  unfold State.withdrawnNotice
  dsimp only
  repeat' first | assumption | split | with_reducible apply Work.putawayChoice | with_reducible apply Work.rechoose | with_reducible apply Work.clearPutaway | with_reducible apply Work.setMessage | with_reducible apply Work.notify | with_reducible apply Work.toIdle

theorem Work.foundElsewhere {s₀ s₁ : State} (h : Work s₀ s₁) (k slot found : Nat) : Work s₀ (s₁.foundElsewhere k slot found) := by
  unfold State.foundElsewhere
  repeat' first | assumption | split | with_reducible apply Work.clearPutaway | with_reducible apply Work.darken | with_reducible apply Work.notify | with_reducible apply Work.toIdle

theorem Work.enterZone {s₀ s₁ : State} (h : Work s₀ s₁) (k : Nat) (z : Option Nat) : Work s₀ (s₁.enterZone k z) := by
  unfold State.enterZone
  repeat' first | assumption | split | with_reducible apply Work.onAudit

theorem Work.enterLowest {s₀ s₁ : State} (h : Work s₀ s₁) (k : Nat) : Work s₀ (s₁.enterLowest k) := by
  unfold State.enterLowest
  repeat' first | assumption | split | with_reducible apply Work.enterZone

theorem Work.certify {s₀ s₁ : State} (h : Work s₀ s₁) (k : Nat) : Work s₀ (s₁.certify k) := by
  unfold State.certify
  repeat' first | assumption | split | with_reducible apply Work.notify | with_reducible apply Work.enterZone

theorem Work.zonesChanged {s₀ s₁ : State} (h : Work s₀ s₁) (k : Nat) : Work s₀ (s₁.zonesChanged k) := by
  unfold State.zonesChanged
  repeat' first | assumption | split | with_reducible apply Work.enterLowest | with_reducible apply Work.certify | with_reducible apply Work.enterZone

theorem Work.carriersChanged {s₀ s₁ : State} (h : Work s₀ s₁) (k : Nat) : Work s₀ (s₁.carriersChanged k) := by
  unfold State.carriersChanged
  dsimp only
  repeat' first | assumption | split | with_reducible apply Work.onAudit | with_reducible apply Work.enterLowest

theorem Work.discrepancy {s₀ s₁ : State} (h : Work s₀ s₁) (k c i : Nat) (kind : Finding) (expected observed other : Option Nat) : Work s₀ (s₁.discrepancy k c i kind expected observed other) := by
  unfold State.discrepancy
  dsimp only
  repeat' first | assumption | split | with_reducible apply Work.logFinding | with_reducible apply Work.onAudit

theorem Work.carrySwap {s₀ s₁ : State} (h : Work s₀ s₁) (k c x y : Nat) : Work s₀ (s₁.carrySwap k c x y) := by
  unfold State.carrySwap
  dsimp only
  repeat' first | assumption | split | with_reducible apply Work.exchange | with_reducible apply Work.discrepancy | with_reducible apply Work.holdSwapped

theorem Work.clearFresh {s₀ s₁ : State} (h : Work s₀ s₁) (i : Nat) : Work s₀ (s₁.clearFresh i) :=
  h.setSlot i _ fun _ g => g.own i

/-- What a verdict on slot `i` with observed tag `o` knows (R123): under UNEXPECTED no other slot records the tag,
under FOREIGN the slot named does. -/
def State.finds (s : State) (i : Nat) (o : Option Nat) : Verdict → Prop
  | .agreement | .missing => True
  | .unexpected => s.tagFree i (some (o.getD 0))
  | .foreign v => (s.slot v).content.tag = some (o.getD 0)

theorem State.verdict_finds {s : State} (h : TablesOk s) (i : Nat) (o : Option Nat) : s.finds i o (s.verdict i o) := by
  have found : ∀ v, s.elsewhere i o = some v → (s.slot v).content.tag = some (o.getD 0) := by
    intro v hv
    unfold State.elsewhere at hv
    split at hv
    · cases hv
    · exact State.tagElsewhere_some h.slots hv
  unfold State.verdict
  repeat' split
  all_goals first
    | trivial
    | exact found _ ‹_›
    | skip
  cases o with
  | none => simp_all
  | some tag => exact State.tagElsewhere_none ‹_›

theorem Work.logDisplaced {s₀ s₁ : State} (h : Work s₀ s₁) (i : Nat) (own o : Option Nat) : Work s₀ (s₁.logDisplaced i own o) := by
  unfold State.logDisplaced
  repeat' first | assumption | split | with_reducible apply Work.logFinding

theorem Work.carryVerdict {s₀ s₁ : State} (h : Work s₀ s₁) (k c i : Nat) (o : Option Nat) (z : Verdict)
    (hz : TablesOk s₀ → s₁.finds i o z) : Work s₀ (s₁.carryVerdict k c i o z) := by
  cases z with
  | agreement => exact h
  | missing => exact (h.holdMissing _).discrepancy _ _ _ _ _ _ _
  | unexpected => exact (h.holdUnexpected _ _ hz).discrepancy _ _ _ _ _ _ _
  | foreign v => exact ((h.foreignMove _ _ _ hz).discrepancy _ _ _ _ _ _ _).logDisplaced _ _ _

@[simp] theorem State.clearFresh_content (s : State) (i j : Nat) :
    ((s.clearFresh i).slot j).content = (s.slot j).content := by
  unfold State.clearFresh
  rw [State.setSlot_read]
  split <;> simp_all

theorem State.clearFresh_finds (s : State) (i j : Nat) (o : Option Nat) (z : Verdict) :
    (s.clearFresh i).finds j o z ↔ s.finds j o z := by
  cases z <;> simp [State.finds, State.tagFree]

theorem Work.position {s₀ : State} {g : Judgement} (h : Work s₀ g.state) (pairs : Nat → Option Nat)
    (tags : List Nat) (k c positions x : Nat) : Work s₀ (g.position pairs tags k c positions x).state := by
  unfold Judgement.position
  split
  · unfold Judgement.compare
    dsimp only
    split
    · exact h.clearFresh _
    · exact (h.clearFresh _).carryVerdict _ _ _ _ _ fun ht =>
        (State.clearFresh_finds _ _ _ _ _).2 (State.verdict_finds (h.tables ht) _ _)
  · split
    · exact h.carrySwap _ _ _ _
    · exact h

theorem Work.settle {s₀ : State} {g : Judgement} (h : Work s₀ g.state) (k c : Nat) :
    Work s₀ (g.settle k c) := by
  unfold Judgement.settle
  split
  · exact h
  · exact h.onAudit _ _

theorem Work.positions {s₀ : State} {g : Judgement} (h : Work s₀ g.state) (pairs : Nat → Option Nat)
    (tags : List Nat) (k c positions : Nat) (xs : List Nat) :
    Work s₀ (xs.foldl (Judgement.position pairs tags k c positions) g).state := by
  induction xs generalizing g with
  | nil => exact h
  | cons x xs ih => exact ih (h.position pairs tags k c positions x)

theorem Work.judge {s₀ s₁ : State} (h : Work s₀ s₁) (k c : Nat) (tags : List Nat) :
    Work s₀ (s₁.judge k c tags) :=
  ((Work.positions (g := { state := s₁ }) h _ _ _ _ _ _).settle k c).certify k

theorem Work.gateReport {s₀ s₁ : State} (h : Work s₀ s₁) (k c : Nat) (tags : List Nat) : Work s₀ (s₁.gateReport k c tags) := by
  unfold State.gateReport
  dsimp only
  repeat' first | assumption | split | with_reducible apply Work.onAudit | with_reducible apply Work.judge

theorem Work.sweepCompleted {s₀ s₁ : State} (h : Work s₀ s₁) (k : Nat) : Work s₀ (s₁.sweepCompleted k) := by
  unfold State.sweepCompleted
  dsimp only
  repeat' first | assumption | split | with_reducible apply Work.notify | with_reducible apply Work.onAudit

theorem Work.settleCursor {s₀ s₁ : State} (h : Work s₀ s₁) (k : Nat) (before : AuditMode) : Work s₀ (s₁.settleCursor k before) := by
  unfold State.settleCursor
  repeat' first | assumption | split | with_reducible apply Work.enterLowest | with_reducible apply Work.certify

theorem Work.tellFailed {s₀ s₁ : State} (h : Work s₀ s₁) (k : Nat) (z : Option Move) : Work s₀ (s₁.tellFailed k z) := by
  unfold State.tellFailed
  repeat' first | assumption | split | with_reducible apply Work.callFailed

theorem Work.enterFault {s₀ s₁ : State} (h : Work s₀ s₁) (k : Nat) (cause : FaultCause) : Work s₀ (s₁.enterFault k cause) := by
  unfold State.enterFault
  dsimp only
  repeat' first | assumption | split | with_reducible apply Work.onCarousel | with_reducible apply Work.queueField | with_reducible apply Work.tellFailed | with_reducible apply Work.notify | (intro _; rfl)

theorem Work.refault {s₀ s₁ : State} (h : Work s₀ s₁) (k : Nat) (cause : FaultCause) : Work s₀ (s₁.refault k cause) := by
  unfold State.refault
  repeat' first | assumption | split | with_reducible apply Work.onCarousel | with_reducible apply Work.notify | (intro _; rfl)

theorem Work.faultReaches {s₀ s₁ : State} (h : Work s₀ s₁) (k : Nat) (cause : FaultCause) : Work s₀ (s₁.faultReaches k cause) := by
  unfold State.faultReaches
  repeat' first | assumption | split | with_reducible apply Work.enterFault | with_reducible apply Work.refault

theorem Work.yieldTo {s₀ s₁ : State} (h : Work s₀ s₁) (k node : Nat) : Work s₀ (s₁.yieldTo k node) := by
  unfold State.yieldTo
  dsimp only
  repeat' first | assumption | split | with_reducible apply Work.onCarousel | with_reducible apply Work.withdrawField | with_reducible apply Work.tellFailed | with_reducible apply Work.notify | (intro _; rfl)

theorem Work.enterStanding {s₀ s₁ : State} (h : Work s₀ s₁) (k : Nat) : Work s₀ (s₁.enterStanding k) := by
  unfold State.enterStanding
  repeat' first | assumption | split | with_reducible apply Work.onCarousel | with_reducible apply Work.autoCall | (intro _; rfl)

theorem Work.setAtPort {s₀ s₁ : State} (h : Work s₀ s₁) (k carrier : Nat) : Work s₀ (s₁.setAtPort k carrier) := by
  unfold State.setAtPort
  dsimp only
  repeat' first | assumption | split | with_reducible apply Work.onCarousel | with_reducible apply Work.carrierLeft | (intro _; rfl)

theorem Work.positionReport {s₀ s₁ : State} (h : Work s₀ s₁) (k carrier : Nat) : Work s₀ (s₁.positionReport k carrier) := by
  unfold State.positionReport
  repeat' first | assumption | split | with_reducible apply Work.onCarousel | with_reducible apply Work.setAtPort | with_reducible apply Work.enterFault | (intro _; unfold Carousel.notes; split <;> rfl)

theorem Work.tellOwner {s₀ s₁ : State} (h : Work s₀ s₁) (k : Nat) (m : Move) : Work s₀ (s₁.tellOwner k m) := by
  unfold State.tellOwner
  repeat' first | assumption | split | with_reducible apply Work.onCarousel | with_reducible apply Work.arrivalAt | with_reducible apply Work.sweepCompleted | (intro _; rfl)

theorem Work.endMove {s₀ s₁ : State} (h : Work s₀ s₁) (k : Nat) : Work s₀ (s₁.endMove k) :=
  h.onCarousel k _ (fun _ => rfl)

theorem Work.completeMove {s₀ s₁ : State} (h : Work s₀ s₁) (k : Nat) (m : Move) : Work s₀ (s₁.completeMove k m) := by
  unfold State.completeMove
  dsimp only
  repeat' first | assumption | split | with_reducible apply Work.autoCall | with_reducible apply Work.tellOwner | with_reducible apply Work.endMove

theorem Work.arrivedMoving {s₀ s₁ : State} (h : Work s₀ s₁) (k carrier : Nat) : Work s₀ (s₁.arrivedMoving k carrier) := by
  unfold State.arrivedMoving
  repeat' first | assumption | split | with_reducible apply Work.setAtPort | with_reducible apply Work.completeMove | with_reducible apply Work.enterFault

theorem Work.arrivedReport {s₀ s₁ : State} (h : Work s₀ s₁) (k carrier : Nat) : Work s₀ (s₁.arrivedReport k carrier) := by
  unfold State.arrivedReport
  repeat' first | assumption | split | with_reducible apply Work.arrivedMoving | with_reducible apply Work.enterFault | with_reducible apply Work.setAtPort

theorem Work.moveExpiry {s₀ s₁ : State} (h : Work s₀ s₁) (k : Nat) : Work s₀ (s₁.moveExpiry k) := by
  unfold State.moveExpiry
  repeat' first | assumption | split | with_reducible apply Work.onCarousel | with_reducible apply Work.faultReaches | (intro _; rfl)

theorem Work.curtainChanged {s₀ s₁ : State} (h : Work s₀ s₁) (k : Nat) (broken : Bool) : Work s₀ (s₁.curtainChanged k broken) := by
  unfold State.curtainChanged
  dsimp only
  repeat' first | assumption | split | with_reducible apply Work.onCarousel | with_reducible apply Work.queueField | (intro _; rfl)

theorem Work.curtainReport {s₀ s₁ : State} (h : Work s₀ s₁) (k : Nat) (broken : Bool) : Work s₀ (s₁.curtainReport k broken) := by
  unfold State.curtainReport
  repeat' first | assumption | split | with_reducible apply Work.curtainChanged

theorem Work.resumeMove {s₀ s₁ : State} (h : Work s₀ s₁) (k : Nat) (m : Move) : Work s₀ (s₁.resumeMove k m) := by
  unfold State.resumeMove
  repeat' first | assumption | split | with_reducible apply Work.completeMove | with_reducible apply Work.startLeg

theorem Work.dwellExpiry {s₀ s₁ : State} (h : Work s₀ s₁) (k : Nat) : Work s₀ (s₁.dwellExpiry k) := by
  unfold State.dwellExpiry
  dsimp only
  repeat' first | assumption | split | with_reducible apply Work.onCarousel | with_reducible apply Work.resumeMove | (intro _; rfl)

theorem Work.sweepExpiry {s₀ s₁ : State} (h : Work s₀ s₁) (k : Nat) : Work s₀ (s₁.sweepExpiry k) := by
  unfold State.sweepExpiry
  repeat' first | assumption | split | with_reducible apply Work.onCarousel | with_reducible apply Work.moveRequest | (intro _; rfl)

theorem Work.driveReport {s₀ s₁ : State} (h : Work s₀ s₁) (k : Nat) (commander fault : Option Nat) : Work s₀ (s₁.driveReport k commander fault) := by
  unfold State.driveReport
  dsimp only
  repeat' first | assumption | split | with_reducible apply Work.onCarousel | with_reducible apply Work.yieldTo | with_reducible apply Work.faultReaches | (intro _; rfl)

theorem Work.releaseStops {s₀ s₁ : State} (h : Work s₀ s₁) (k : Nat) : Work s₀ (s₁.releaseStops k) := by
  unfold State.releaseStops
  dsimp only
  repeat' first | assumption | split | rintro _ _ _ | with_reducible apply Work.markLine | with_reducible apply Work.tryRelease | with_reducible apply Work.fold

end Sys2Proof.Machine
end

