-- ==== Sys2Proof/Laws/Keeps.lean ====
section
/-! SUPPORT. What each shared operation keeps of the invariants of Safety.lean. `Keeps s t`: each invariant that
holds of `s` holds of `t`. `Sound s t`: moreover no reply and no intake entry has joined. -/

namespace Sys2Proof.Machine

/-- Each invariant that holds of `s` holds of `t`. -/
structure Keeps (s t : State) : Prop where
  forward : s.ring.forward.length ≤ 8 → t.ring.forward.length ≤ 8
  field : fieldOk s.ring.field → fieldOk t.ring.field
  replies : s.ring.replies.length ≤ 4 → t.ring.replies.length ≤ 4
  notices : noticesOk s.ring.notices → noticesOk t.ring.notices
  intake : s.command.intake.length ≤ 8 → t.command.intake.length ≤ 8
  counters : CountersOk s.ring.counters → CountersOk t.ring.counters
  tables : TablesOk s → TablesOk t
  bank : ActiveBankValid s → ActiveBankValid t
  tags : TablesOk s → TagsDistinct s → TagsDistinct t

theorem Keeps.refl (s : State) : Keeps s s := ⟨id, id, id, id, id, id, id, id, fun _ => id⟩

theorem Keeps.trans {s t u : State} (h : Keeps s t) (g : Keeps t u) : Keeps s u :=
  ⟨g.forward ∘ h.forward, g.field ∘ h.field, g.replies ∘ h.replies, g.notices ∘ h.notices,
    g.intake ∘ h.intake, g.counters ∘ h.counters, g.tables ∘ h.tables, g.bank ∘ h.bank,
    fun x y => g.tags (h.tables x) (h.tags x y)⟩

/-- `Keeps`, and no reply and no intake entry has joined. -/
structure Sound (s t : State) : Prop where
  keeps : Keeps s t
  repliesLe : t.ring.replies.length ≤ s.ring.replies.length
  intakeLe : t.command.intake.length ≤ s.command.intake.length

theorem Sound.refl (s : State) : Sound s s := ⟨.refl s, le_rfl, le_rfl⟩

theorem Sound.trans {s t u : State} (h : Sound s t) (g : Sound t u) : Sound s u :=
  ⟨h.keeps.trans g.keeps, g.repliesLe.trans h.repliesLe, g.intakeLe.trans h.intakeLe⟩

theorem TagsDistinct.of_eq {s t : State} (h : TagsDistinct s) (ht : t.stock.slots = s.stock.slots) : TagsDistinct t := by
  intro i j tag
  simp only [State.slot, ht]
  exact h i j tag

/-- A change that leaves all the invariants speak of as it was. -/
theorem Sound.of_eq {s t : State} (hr : t.ring = s.ring) (hi : t.command.intake = s.command.intake)
    (ht : TablesOk s → TablesOk t) (hp : ActiveBankValid s → ActiveBankValid t)
    (hs : t.stock.slots = s.stock.slots := by rfl) : Sound s t :=
  ⟨⟨by rw [hr]; exact id, by rw [hr]; exact id, by rw [hr]; exact id, by rw [hr]; exact id,
    by rw [hi]; exact id, by rw [hr]; exact id, ht, hp, fun _ g => g.of_eq hs⟩, by rw [hr], by rw [hi]⟩

/-! ## The field command queue (R143) -/

theorem fieldJoin_targets (e : FieldEntry) (q : List FieldEntry) (x : FieldTarget)
    (h : x ∈ (fieldJoin e q).map FieldEntry.target) : x = e.target ∨ x ∈ q.map FieldEntry.target := by
  induction q with
  | nil => simpa [fieldJoin] using h
  | cons y rest ih =>
    simp only [fieldJoin] at h
    split at h
    · rw [List.map_cons, List.mem_cons] at h
      rcases h with h | h
      · exact .inl h
      · exact .inr (List.mem_cons_of_mem _ h)
    · rw [List.map_cons, List.mem_cons] at h
      rcases h with h | h
      · exact .inr (h ▸ List.mem_cons_self)
      · rcases ih h with h | h
        · exact .inl h
        · exact .inr (List.mem_cons_of_mem _ h)

theorem fieldOk_join (e : FieldEntry) {q : List FieldEntry} (h : fieldOk q) : fieldOk (fieldJoin e q) := by
  unfold fieldOk at *
  induction q with
  | nil => simp [fieldJoin]
  | cons y rest ih =>
    simp only [List.map_cons, List.nodup_cons] at h
    simp only [fieldJoin]
    split
    · rename_i he; simpa [← he] using h
    · rename_i he
      simp only [List.map_cons, List.nodup_cons]
      refine ⟨fun hm => ?_, ih h.2⟩
      rcases fieldJoin_targets e rest _ hm with hm | hm
      · exact he hm
      · exact h.1 hm

theorem fieldOk_filter (p : FieldEntry → Bool) {q : List FieldEntry} (h : fieldOk q) :
    fieldOk (q.filter p) :=
  List.Nodup.sublist (List.filter_sublist.map _) h

/-! ## The notice queue (R171) -/

theorem noticesOk_absorb {q : List QueuedNotice} (h : noticesOk q) :
    noticesOk (q.map QueuedNotice.absorb) := by
  have kind : ∀ x : QueuedNotice, x.absorb.notice.isOverflow = x.notice.isOverflow := by
    intro x; unfold QueuedNotice.absorb; split
    · simp_all [Notice.isOverflow]
    · rfl
  obtain ⟨h1, h2, h3⟩ := h
  refine ⟨by simpa using h1, ?_, fun ha => ?_⟩
  · intro x hx
    rw [← List.map_dropLast] at hx
    obtain ⟨y, hy, rfl⟩ := List.mem_map.1 hx
    rw [kind]; exact h2 y hy
  · rw [List.length_map]
    exact h3 fun x hx => by rw [← kind]; exact ha _ (List.mem_map_of_mem hx)

theorem noticesOk_join {q : List QueuedNotice} (x : QueuedNotice) (hl : q.length ≤ 63)
    (ho : ∀ y ∈ q, y.notice.isOverflow = false)
    (hx : x.notice.isOverflow = false → q.length ≤ 62) : noticesOk (q ++ [x]) := by
  refine ⟨by simp; omega, by simpa using ho, fun ha => ?_⟩
  have := hx (ha x (by simp))
  simp; omega

theorem noticesOk_tail {x : QueuedNotice} {q : List QueuedNotice} (h : noticesOk (x :: q)) : noticesOk q := by
  obtain ⟨h1, h2, h3⟩ := h
  simp only [List.length_cons] at h1
  refine ⟨by omega, ?_, fun _ => by omega⟩
  intro y hy
  cases q with
  | nil => simp at hy
  | cons z rest => exact h2 y (by simpa using .inr hy)

/-- What producing a notice does: nothing, or one more in an OVERFLOW's count, or one more notice (R170,
R171). -/
theorem State.notify_cases (s : State) (n : Notice) :
    (s.command.enables.allows n.cls = false ∧ s.notify n = s)
    ∨ (s.command.enables.allows n.cls = true ∧ s.ring.notices.any (fun q => q.notice.isOverflow) = true
        ∧ s.notify n = ({ s with ring := { s.ring with
            notices := s.ring.notices.map QueuedNotice.absorb } } : State).loseNotice)
    ∨ (s.command.enables.allows n.cls = true ∧ s.ring.notices.any (fun q => q.notice.isOverflow) = false
        ∧ s.ring.notices.length ≤ 62 ∧ s.notify n = s.placeNotice n)
    ∨ (s.command.enables.allows n.cls = true ∧ s.ring.notices.any (fun q => q.notice.isOverflow) = false
        ∧ 62 < s.ring.notices.length ∧ s.notify n = (s.placeNotice (.overflow 1 n.cls n.code)).loseNotice) := by
  unfold State.notify
  split
  · rename_i h; exact .inl ⟨by simpa using h, rfl⟩
  · rename_i h1
    have h1 : s.command.enables.allows n.cls = true := by simpa using h1
    split
    · exact .inr (.inl ⟨h1, ‹_›, rfl⟩)
    · rename_i h2
      have h2 : s.ring.notices.any (fun q => q.notice.isOverflow) = false := by
        cases h : s.ring.notices.any (fun q => q.notice.isOverflow) with
        | true => exact absurd h h2
        | false => rfl
      split
      · exact .inr (.inr (.inl ⟨h1, h2, ‹_›, rfl⟩))
      · rename_i h3; exact .inr (.inr (.inr ⟨h1, h2, by omega, rfl⟩))

theorem State.notify_noticesOk {s : State} (h : noticesOk s.ring.notices) (n : Notice)
    : noticesOk (s.notify n).ring.notices := by
  rcases s.notify_cases n with ⟨-, e⟩ | ⟨-, -, e⟩ | ⟨-, ho, hl, e⟩ | ⟨-, ho, hl, e⟩ <;> rw [e]
  · exact h
  · exact noticesOk_absorb h
  · exact noticesOk_join _ (by omega) (by simpa using ho) fun _ => hl
  · have ho : ∀ y ∈ s.ring.notices, y.notice.isOverflow = false := by simpa using ho
    exact noticesOk_join _ (h.2.2 ho) ho fun hx => by simp [Notice.isOverflow] at hx

/-! ## The blocks' own work -/

/-- What the blocks' own work leaves as it was. -/
structure Untouched (s t : State) : Prop where
  pending : t.pending = s.pending
  now : t.now = s.now
  address : t.address = s.address
  serviceHigh : t.serviceHigh = s.serviceHigh
  resetHeld : t.resetHeld = s.resetHeld
  policy : t.policy = s.policy
  calendar : t.stock.calendar = s.stock.calendar
  forward : t.ring.forward = s.ring.forward
  replies : t.ring.replies = s.ring.replies
  pointer : t.ring.pointer = s.ring.pointer
  transmitter : t.ring.transmitter = s.ring.transmitter
  counters : t.ring.counters = s.ring.counters
  receiver : t.ring.receiver = s.ring.receiver
  lineBits : t.ring.lineBits = s.ring.lineBits
  intake : t.command.intake = s.command.intake
  enables : t.command.enables = s.command.enables
  overruns : t.command.intakeOverruns = s.command.intakeOverruns
  conveyor : t.lanes.conveyor = s.lanes.conveyor
  transitTimeout : t.lanes.transitTimeout = s.lanes.transitTimeout

theorem Untouched.refl (s : State) : Untouched s s :=
  ⟨rfl, rfl, rfl, rfl, rfl, rfl, rfl, rfl, rfl, rfl, rfl, rfl, rfl, rfl, rfl, rfl, rfl, rfl, rfl⟩

theorem Untouched.trans {s t u : State} (h : Untouched s t) (g : Untouched t u) : Untouched s u where
  pending := g.pending.trans h.pending
  now := g.now.trans h.now
  address := g.address.trans h.address
  serviceHigh := g.serviceHigh.trans h.serviceHigh
  resetHeld := g.resetHeld.trans h.resetHeld
  policy := g.policy.trans h.policy
  calendar := g.calendar.trans h.calendar
  forward := g.forward.trans h.forward
  replies := g.replies.trans h.replies
  pointer := g.pointer.trans h.pointer
  transmitter := g.transmitter.trans h.transmitter
  counters := g.counters.trans h.counters
  receiver := g.receiver.trans h.receiver
  lineBits := g.lineBits.trans h.lineBits
  intake := g.intake.trans h.intake
  enables := g.enables.trans h.enables
  overruns := g.overruns.trans h.overruns
  conveyor := g.conveyor.trans h.conveyor
  transitTimeout := g.transitTimeout.trans h.transitTimeout

theorem Untouched.queueField (s : State) (x : FieldTarget) (c : FieldCommand) :
    Untouched s (s.queueField x c) := by
  unfold State.queueField; split <;> constructor <;> rfl

theorem Untouched.notify (s : State) (n : Notice) : Untouched s (s.notify n) := by
  rcases s.notify_cases n with ⟨-, e⟩ | ⟨-, -, e⟩ | ⟨-, -, -, e⟩ | ⟨-, -, -, e⟩ <;> rw [e] <;>
    constructor <;> rfl

theorem Work.untouched {s t : State} (h : Work s t) : Untouched s t := by
  induction h with
  | refl => constructor <;> rfl
  | queueField _ x c ih => exact ih.trans (.queueField _ x c)
  | notify _ n ih => exact ih.trans (.notify _ n)
  | _ => rename_i ih; exact ih.trans (by constructor <;> rfl)

/-- What configures a carousel is left as it was. -/
theorem Work.fixed {s t : State} (h : Work s t) (k : Nat) : (t.carousel k).fixed = (s.carousel k).fixed := by
  induction h with
  | refl => rfl
  | setCarousel _ j c hc ih =>
    rw [State.setCarousel_read]
    split
    · subst_vars; rw [hc, ih]
    · exact ih
  | queueField _ x c ih => rw [State.queueField_carousel]; exact ih
  | notify _ n ih => rw [State.notify_carousel]; exact ih
  | _ => rename_i ih; exact ih

theorem Work.field {s t : State} (h : Work s t) (hf : fieldOk s.ring.field) : fieldOk t.ring.field := by
  induction h with
  | queueField _ x c ih =>
    unfold State.queueField; split
    · exact ih
    · exact fieldOk_join _ ih
  | withdrawField _ x ih => exact fieldOk_filter _ ih
  | notify _ n ih =>
    rename_i t h
    have : (t.notify n).ring.field = t.ring.field := by
      rcases t.notify_cases n with ⟨-, e⟩ | ⟨-, -, e⟩ | ⟨-, -, -, e⟩ | ⟨-, -, -, e⟩ <;> rw [e] <;> rfl
    rw [this]; exact ih
  | refl => exact hf
  | _ => rename_i ih; exact ih

theorem Work.notices {s t : State} (h : Work s t) (hn : noticesOk s.ring.notices) :
    noticesOk t.ring.notices := by
  induction h with
  | queueField _ x c ih => unfold State.queueField; split <;> exact ih
  | notify _ n ih => exact State.notify_noticesOk ih n
  | refl => exact hn
  | _ => rename_i ih; exact ih

/-- The blocks' own work leaves no tag in two slots (R7). -/
theorem Work.tags {s t : State} (h : Work s t) (ht : TablesOk s) (hd : TagsDistinct s) : TagsDistinct t := by
  induction h with
  | refl => exact hd
  | setSlot _ i x hx ih => exact ih.setSlot (hx ht ih)
  | setSlots _ i j x y hx ih => exact hx ht ih
  | queueField _ x c ih => exact ih.of_eq (by simp)
  | notify _ n ih => exact ih.of_eq (by simp)
  | _ => rename_i ih; exact ih.of_eq rfl

theorem Work.sound {s t : State} (h : Work s t) : Sound s t := by
  have u := h.untouched
  exact ⟨⟨by rw [u.forward]; exact id, h.field, by rw [u.replies]; exact id, h.notices,
    by rw [u.intake]; exact id, by rw [u.counters]; exact id, h.tables,
    by unfold ActiveBankValid State.activeBank; rw [u.policy]; exact id, h.tags⟩,
    by rw [u.replies], by rw [u.intake]⟩

end Sys2Proof.Machine
end

