-- ==== Sys2Proof/Laws/Answers.lean ====
section
/-! SUPPORT. What the commands' answers, the intake, the arbiter and the end of an event keep of the invariants. -/

namespace Sys2Proof.Machine

/-! ## The Policy Store (08) -/

theorem Sound.setSession (s : State) (x : Option Session) : Sound s (s.setSession x) :=
  .of_eq rfl rfl (fun h => h.of_eq rfl rfl rfl rfl rfl) id

theorem Sound.setShadowBank (s : State) (b : Bank) : Sound s (s.setShadowBank b) :=
  .of_eq (by simp) (by simp) (fun h => h.of_eq (by simp) (by simp) (by simp) (by simp) (by simp))
    (by unfold ActiveBankValid; simp) (by simp)

theorem bankCopy_sound (s : State) : Sound s (bankCopyAnswer s).state := by
  unfold bankCopyAnswer; split
  · exact .refl s
  · exact .setShadowBank s _

theorem loadOpen_sound (src t m : Nat) (s : State) : Sound s (loadOpenAnswer src t m s).state := by
  unfold loadOpenAnswer
  repeat' split
  all_goals first | exact .refl s | exact (Sound.setShadowBank s _).trans (.setSession _ _)

theorem loadRecord_sound (src n : Nat) (bytes : List Byte) (s : State) :
    Sound s (loadRecordAnswer src n bytes s).state := by
  unfold loadRecordAnswer
  split
  · exact .refl s
  · split
    · exact .refl s
    · dsimp only
      generalize (if n = 0 ∨ 4 < n then none else readRecords _ n bytes) = items
      cases items with
      | none => exact .setSession s _
      | some items => exact (Sound.setShadowBank s _).trans (.setSession _ _)

theorem loadClose_sound (src : Nat) (x : BitVec 32) (s : State) : Sound s (loadCloseAnswer src x s).state := by
  unfold loadCloseAnswer
  split
  · exact .refl s
  · split
    · exact .refl s
    · dsimp only
      split
      · exact (Sound.setSession s _).trans (.setShadowBank _ _)
      · exact .setSession s _

/-- A BANK-SWITCH makes the shadow bank the active one only where all its tables are VALID (R159). -/
theorem bankSwitch_sound (s : State) : Sound s (bankSwitchAnswer s).state := by
  unfold bankSwitchAnswer
  split
  · exact .refl s
  · split
    · exact .refl s
    · rename_i h
      dsimp only
      refine Sound.trans (t := { s with policy := { s.policy with active := s.policy.active.other } })
        (.of_eq rfl rfl (fun g => g.of_eq rfl rfl rfl rfl rfl) fun _ => ?_) (Work.refl.notify _).sound
      have hv : s.shadowBank.allValid = true := by simpa using h
      cases hp : s.policy.active <;>
        simpa [ActiveBankValid, State.activeBank, State.shadowBank, BankName.other, hp] using hv

/-! ## Commands whose effect is the blocks' own work -/

theorem onCarousel_sound (s : State) (k : Nat) (f : Carousel → Carousel) : Sound s (s.onCarousel k f) :=
  .of_eq rfl rfl (fun h => h.setCarousel k _) id

theorem configure_sound (k n p : Nat) (b : Bool) (d po g : Nat) (s : State) :
    Sound s (configureAnswer k n p b d po g s).state := by
  unfold configureAnswer
  dsimp only
  repeat' split
  all_goals first
    | exact .refl s
    | (dsimp only; exact onCarousel_sound s _ _)
    | (dsimp only; exact (onCarousel_sound s _ _).trans (Work.refl.carriersChanged _).sound)

theorem zoneMap_sound (k f : Nat) (zs : List Nat) (s : State) : Sound s (zoneMapAnswer k f zs s).state := by
  unfold zoneMapAnswer; split
  · exact .refl s
  · exact (onCarousel_sound s _ _).trans (Work.refl.zonesChanged _).sound

theorem timing_sound (k : Nat) (o : Bool) (v d i b : Nat) (s : State) :
    Sound s (timingAnswer k o v d i b s).state := by
  unfold timingAnswer; split
  · exact .refl s
  · dsimp only; exact onCarousel_sound s _ _

theorem online_work (k : Nat) (s : State) : Work s (onlineAnswer k s).state := by
  unfold onlineAnswer
  repeat' split
  all_goals first | exact .refl | exact Work.refl.enterStanding _

theorem offline_work (k : Nat) (s : State) : Work s (offlineAnswer k s).state := by
  unfold offlineAnswer
  repeat' split
  all_goals first | exact .refl | (dsimp only; refine Work.refl.onCarousel _ _ ?_; exact fun _ => rfl)

theorem clearFault_work (k : Nat) (s : State) : Work s (clearFaultAnswer k s).state := by
  unfold clearFaultAnswer; dsimp only
  repeat' split
  all_goals first | exact .refl | (refine (Work.refl.onCarousel _ _ ?_).enterStanding _; exact fun _ => rfl)

theorem reclaim_work (k : Nat) (s : State) : Work s (reclaimAnswer k s).state := by
  unfold reclaimAnswer
  repeat' split
  all_goals first | exact .refl | exact Work.refl.enterStanding _
                  | (refine (Work.refl.onCarousel _ _ ?_).enterFault _ _; exact fun _ => rfl)

theorem replanCarousel_work (k : Nat) (s : State) : Work s (replanCarouselAnswer k s).state := by
  unfold replanCarouselAnswer
  repeat' split
  all_goals first | exact .refl | exact Work.refl.releaseStops _

theorem jog_work (k n d : Nat) (s : State) : Work s (jogAnswer k n d s).state := by
  unfold jogAnswer; dsimp only
  repeat' split
  all_goals first | exact .refl | exact Work.refl.moveRequest _ _ _ _

theorem setPort_work (k : Nat) (a h : Bool) (u r t : Nat) (s : State) :
    Work s (setPortAnswer k a h u r t s).state := by
  unfold setPortAnswer; dsimp only
  repeat' first
    | exact .refl
    | split
    | with_reducible apply Work.makeCall
    | with_reducible apply Work.rebuild
    | with_reducible apply Work.onPort

theorem portMode_work (k m : Nat) (s : State) : Work s (portModeAnswer k m s).state := by
  unfold portModeAnswer
  repeat' split
  all_goals first | exact .refl | (dsimp only; exact Work.refl.onPort _ _)
                  | (dsimp only; exact ((Work.refl.onPort _ _).darken _ _).autoCall _)

theorem Work.loadRecords {s t : State} (h : Work s t) (rs : List SlotArg) :
    Work s (t.loadRecords rs).1 := by
  induction rs generalizing t with
  | nil => exact h
  | cons r rs ih => exact ih (h.loadSlot r)

theorem loadSlots_work (rs : List SlotArg) (s : State) : Work s (loadSlotsAnswer rs s).state := by
  unfold loadSlotsAnswer; split
  · exact .refl
  · exact Work.refl.loadRecords rs

theorem heldTyre_tag {x : Content} {t : Tyre} (h : x.heldTyre = some t) : (Content.stored t).tag = x.tag := by
  unfold Content.heldTyre at h
  split at h
  · split at h
    · rename_i ht _; cases h; exact ht.symm
    · cases h
  all_goals cases h

theorem holdAccept_work (i : Nat) (s : State) : Work s (holdAcceptAnswer i s).state := by
  unfold holdAcceptAnswer
  repeat' split
  all_goals first | exact .refl | exact (Work.refl.freshens _ _ (heldTyre_tag ‹_›)).hand _

theorem holdClear_work (i : Nat) (s : State) : Work s (holdClearAnswer i s).state := by
  unfold holdClearAnswer
  repeat' split
  all_goals first | exact .refl | exact Work.refl.empties _

theorem holdSet_work (i tag a w y : Nat) (s : State) : Work s (holdSetAnswer i tag a w y s).state := by
  unfold holdSetAnswer
  repeat' split
  all_goals first | exact .refl | exact holdClear_work _ _
                  | exact (Work.refl.refresh _ _ fun _ _ => State.tagElsewhere_none ‹_›).hand _

theorem order_work (src id pr ch : Nat) (co : Bool) (po li : Nat) (ls : List LineArg) (s : State) :
    Work s (orderAnswer src id pr ch co po li ls s).state := by
  unfold orderAnswer; dsimp only
  repeat' split
  all_goals first | exact .refl | (dsimp only; exact (Work.refl.bindOrder _ _ _ _).acceptOrder _)

theorem cancel_work (src id : Nat) (s : State) : Work s (cancelAnswer src id s).state := by
  unfold cancelAnswer; split
  · exact .refl
  · exact Work.refl.closeOrder _ _

theorem shortClose_work (src id : Nat) (e : Bool) (s : State) : Work s (shortCloseAnswer src id e s).state := by
  unfold shortCloseAnswer
  split
  · exact .refl
  · dsimp only
    refine Work.closeOrder ?_ _ _
    split
    · exact Work.refl.closeChain _
    · exact .refl

theorem laneRelease_work (j : Nat) (f : Bool) (s : State) : Work s (laneReleaseAnswer j f s).state := by
  unfold laneReleaseAnswer
  repeat' split
  all_goals first | exact .refl | exact Work.refl.forceRelease _ | exact Work.refl.openLane _

theorem laneClear_work (j : Nat) (s : State) : Work s (laneClearAnswer j s).state := by
  unfold laneClearAnswer; split
  · exact .refl
  · exact (Work.refl.onLane _ _).judgeLane _

theorem auditSet_work (k m : Nat) (z : BitVec 16) (q : Nat) (a : Bool) (s : State) :
    Work s (auditSetAnswer k m z q a s).state := by
  unfold auditSetAnswer
  repeat' split
  all_goals first | exact .refl | exact (Work.refl.onAudit _ _).settleCursor _ _

theorem readLog_work (s : State) : Work s (readLogAnswer s).state :=
  Work.refl.logged (s.audit.log.drop 4) s.audit.logCount

/-- A query changes nothing (R167). -/
theorem query_state (kind a b : Nat) (s : State) : (queryAnswer kind a b s).state = s := by
  unfold queryAnswer; split <;> rfl

/-! ## Settings outside the blocks' records -/

theorem setNotices_sound (o l p m a st : Bool) (s : State) : Sound s (setNoticesAnswer o l p m a st s).state :=
  .of_eq rfl rfl (fun h => h.of_eq rfl rfl rfl rfl rfl) id

theorem withCalendar_sound (w y : Nat) (s : State) : Sound s (s.withCalendar w y) :=
  .of_eq rfl rfl (fun h => h.of_eq rfl rfl rfl rfl rfl) id

theorem setCalendar_sound (w y : Nat) (s : State) : Sound s (setCalendarAnswer w y s).state := by
  unfold setCalendarAnswer; split
  · exact withCalendar_sound w y s
  · exact .refl s

theorem broadcastCalendar_sound (w y : Nat) (s : State) : Sound s (s.broadcastCalendar w y) := by
  unfold State.broadcastCalendar; split
  · exact withCalendar_sound w y s
  · exact .refl s

theorem setLanes_sound (n t : Nat) (s : State) : Sound s (setLanesAnswer n t s).state := by
  unfold setLanesAnswer
  repeat' split
  all_goals first | exact .refl s
                  | exact .of_eq rfl rfl (fun h => h.of_eq rfl rfl rfl rfl rfl) id

/-! ## The restarts (R174, R175) -/

/-- A change of an unlisted slot's record by RESTART-OPS is none. -/
theorem slot_restarted_proper (x : Slot) (h : x ≠ {}) : x.restarted ≠ {} := by
  obtain ⟨c, f⟩ := x
  cases c <;> simp_all [Slot.restarted]

theorem sparseMap_find {α : Type} (f : α → α) (k : Nat) (m : Sparse α) :
    sparseFind k (sparseMap f m) = (sparseFind k m).map f := by
  induction m with
  | nil => rfl
  | cons x m ih =>
    obtain ⟨j, v⟩ := x
    simp only [sparseMap, sparseFind]
    split
    · rfl
    · exact ih

/-- A slot after RESTART-OPS reads as its record before it, restarted (R26). -/
theorem State.restartStock_slot (s : State) (i : Nat) : s.restartStock.slot i = (s.slot i).restarted := by
  show sparseGet {} i (sparseMap Slot.restarted s.stock.slots) = _
  unfold State.slot sparseGet
  rw [sparseMap_find]
  cases sparseFind i s.stock.slots <;> rfl

/-- RESTART-OPS gives no slot a tag. -/
theorem restarted_tag {s : State} {i tag : Nat} (h : (s.restartStock.slot i).content.tag = some tag) :
    (s.slot i).content.tag = some tag := by
  rw [State.restartStock_slot] at h
  generalize s.slot i = x at h ⊢
  obtain ⟨c, f⟩ := x
  cases c <;> first | exact h | cases h

theorem restartStock_sound (s : State) : Sound s s.restartStock :=
  ⟨⟨id, id, id, id, id, id,
    fun h => ⟨sparseCanonical_map slot_restarted_proper h.slots, h.carousels, h.ports, h.lanes, h.records⟩, id,
    fun _ h i j tag hi hj => h i j tag (restarted_tag hi) (restarted_tag hj)⟩, le_rfl, le_rfl⟩

theorem restartMotion_work {s t : State} (h : Work s t) (k : Nat) : Work s (t.restartMotion k) := by
  unfold State.restartMotion; dsimp only
  split
  · exact (h.onCarousel _ Carousel.restarted fun _ => rfl).queueField _ _
  · exact h.onCarousel _ Carousel.restarted fun _ => rfl

theorem restartMotions_work (s : State) : Work s s.restartMotions :=
  (Work.refl.fold fun _ k h => restartMotion_work h k).creations 0

theorem restartAudit_work {s t : State} (h : Work s t) (k : Nat) : Work s (t.restartAudit k) := by
  unfold State.restartAudit; dsimp only
  split
  · exact (h.onAudit _ _).enterLowest _
  · exact h.onAudit _ _

theorem restartLines_sound (s : State) : Sound s s.restartLines :=
  ⟨⟨id, id, id, id, id, fun _ => by constructor <;> exact Nat.zero_le _,
    fun h => ⟨h.slots, h.carousels, h.ports, rfl, h.records⟩, id, fun _ h => h.of_eq rfl⟩, le_rfl, le_rfl⟩

theorem restartedOps_sound (s : State) : Sound s s.restartedOps := by
  unfold State.restartedOps
  extract_lets ports
  have hp : Work s.restartStock ports := (restartMotions_work _).fold fun _ k h => h.onPort k _
  have hl : Work ports.restartLines (carouselNumbers.foldl State.restartAudit ports.restartLines) :=
    Work.refl.fold fun _ k h => restartAudit_work h k
  exact ((restartStock_sound s).trans hp.sound).trans ((restartLines_sound ports).trans hl.sound)

theorem restartOps_sound (s : State) : Sound s (restartOpsAnswer s).state := by
  unfold restartOpsAnswer
  dsimp only
  exact (restartedOps_sound s).trans (Work.refl.notify _).sound

/-- Every invariant holds of a part with every block at its power-on values. -/
theorem fresh_sound (s : State) (a : Nat) (high : Bool) : Sound s (s.fresh a high) :=
  ⟨⟨fun _ => Nat.zero_le _, fun _ => List.nodup_nil, fun _ => Nat.zero_le _,
    fun _ => ⟨Nat.zero_le _, by intro x hx; simp [State.fresh] at hx, fun _ => Nat.zero_le _⟩,
    fun _ => Nat.zero_le _, fun _ => by constructor <;> exact Nat.zero_le _,
    fun _ => ⟨rfl, rfl, rfl, rfl, rfl⟩, fun _ => rfl,
    fun _ _ i j tag h => by cases h⟩, Nat.zero_le _, Nat.zero_le _⟩

theorem restartedAll_sound (s : State) : Sound s s.restartedAll := by
  refine ((fresh_sound s s.address s.serviceHigh).trans ?_).trans (Work.refl.notify _).sound
  exact ⟨⟨id, id, id, id, id, id, fun h => h.of_eq rfl rfl rfl rfl rfl, id, fun _ h => h.of_eq rfl⟩, le_rfl, le_rfl⟩

theorem fromNodeZero_sound (src : Nat) {f : State → Answer} (h : ∀ s, Sound s (f s).state) (s : State) :
    Sound s (fromNodeZero src f s).state := by
  unfold fromNodeZero; split
  · exact h s
  · exact .refl s

/-! ## Every command -/

theorem answerTo_sound (c : Instr) (s : State) : Sound s (answerTo c s).state := by
  cases c with
  | query src kind a b =>
    show Sound s (queryAnswer kind a b s).state
    rw [query_state]; exact .refl s
  | readAuditLog => exact (readLog_work s).sound
  | setCalendar => exact setCalendar_sound _ _ s
  | setNotices => exact setNotices_sound _ _ _ _ _ _ s
  | configureCarousel => exact configure_sound _ _ _ _ _ _ _ s
  | setZoneMap => exact zoneMap_sound _ _ _ s
  | setTiming => exact timing_sound _ _ _ _ _ _ s
  | carouselOnline => exact (online_work _ s).sound
  | carouselOffline => exact (offline_work _ s).sound
  | clearFault => exact (clearFault_work _ s).sound
  | reclaim => exact (reclaim_work _ s).sound
  | replanCarousel => exact (replanCarousel_work _ s).sound
  | jogRequest => exact (jog_work _ _ _ s).sound
  | setPort => exact (setPort_work _ _ _ _ _ _ s).sound
  | portMode => exact (portMode_work _ _ s).sound
  | loadSlots => exact (loadSlots_work _ s).sound
  | holdReleaseAccept => exact (holdAccept_work _ s).sound
  | holdReleaseClear => exact (holdClear_work _ s).sound
  | holdReleaseSet => exact (holdSet_work _ _ _ _ _ s).sound
  | bankCopy => exact bankCopy_sound s
  | loadOpen => exact loadOpen_sound _ _ _ s
  | loadRecord => exact loadRecord_sound _ _ _ s
  | loadClose => exact loadClose_sound _ _ s
  | bankSwitch => exact bankSwitch_sound s
  | order => exact (order_work _ _ _ _ _ _ _ _ s).sound
  | orderCancel => exact (cancel_work _ _ s).sound
  | shortClose => exact (shortClose_work _ _ _ s).sound
  | setLanes => exact setLanes_sound _ _ s
  | laneRelease => exact (laneRelease_work _ _ s).sound
  | laneClearForeign => exact (laneClear_work _ s).sound
  | auditSet => exact (auditSet_work _ _ _ _ _ s).sound
  | restartOps => exact fromNodeZero_sound _ restartOps_sound s
  | restartAll => exact fromNodeZero_sound _ (fun s => restartedAll_sound s) s
  | _ => exact .refl s

theorem payloadAnswer_sound (src : Nat) (p : List Byte) (s : State) : Sound s (payloadAnswer src p s).state := by
  unfold payloadAnswer; split
  · exact answerTo_sound _ s
  · exact .refl s

/-! ## The intake (R162 to R165) -/

/-- A reply placed where an entry is free. -/
theorem placed_keeps {s : State} (a : Answer) (h : Sound s a.state) (src n : Nat)
    (hr : s.ring.replies.length < 4) : Keeps s (a.placed src n) :=
  { h.keeps with
    replies := fun _ => by
      show (a.state.ring.replies ++ [_]).length ≤ 4
      have := h.repliesLe
      simp; omega
    tables := fun g => (h.keeps.tables g).of_eq rfl rfl rfl rfl rfl }

theorem takeCommand_keeps (s : State) (e : IntakeEntry) (h : s.mayTake e.broadcast = true) :
    Keeps s (s.takeCommand e) := by
  unfold State.takeCommand
  split
  · unfold State.takeBroadcast; split
    · exact (broadcastCalendar_sound _ _ s).keeps
    all_goals exact .refl s
  · rename_i hb
    refine placed_keeps _ (payloadAnswer_sound _ _ s) _ _ ?_
    simpa [State.mayTake, hb] using h

theorem pump_keeps (n : Nat) (s : State) : Keeps s (s.pump n) := by
  induction n generalizing s with
  | zero => exact .refl s
  | succ n ih =>
    unfold State.pump
    split
    · exact .refl s
    · rename_i e rest he
      split
      · rename_i hm
        refine (Keeps.trans (t := { s with command := { s.command with intake := rest } }) ?_
          (takeCommand_keeps _ e hm)).trans (ih _)
        exact ⟨id, id, id, id, fun h => by simp only [he, List.length_cons] at h; exact Nat.le_of_lt h, id,
          fun g => g.of_eq rfl rfl rfl rfl rfl, id, fun _ g => g.of_eq rfl⟩
      · exact .refl s

theorem pumpAll_keeps (s : State) : Keeps s s.pumpAll := pump_keeps _ s

/-- Taking a command adds none to the FIFO. -/
theorem takeCommand_intakeLe (s : State) (e : IntakeEntry) :
    (s.takeCommand e).command.intake.length ≤ s.command.intake.length := by
  unfold State.takeCommand
  split
  · unfold State.takeBroadcast; split
    · exact (broadcastCalendar_sound _ _ s).intakeLe
    all_goals exact le_rfl
  · exact (payloadAnswer_sound _ _ s).intakeLe

/-- Any number of takings that covers the FIFO takes every command that may be taken. -/
theorem pump_enough : ∀ (m n : Nat) (s : State), s.command.intake.length ≤ m → s.command.intake.length ≤ n →
    s.pump m = s.pump n
  | 0, n, s, hm, _ => by
    have e : s.command.intake = [] := List.length_eq_zero_iff.1 (Nat.le_zero.1 hm)
    cases n <;> simp [State.pump, e]
  | m + 1, 0, s, _, hn => by
    have e : s.command.intake = [] := List.length_eq_zero_iff.1 (Nat.le_zero.1 hn)
    simp [State.pump, e]
  | m + 1, n + 1, s, hm, hn => by
    unfold State.pump
    split
    · rfl
    · rename_i e rest he
      split
      · rw [he, List.length_cons] at hm hn
        have le := takeCommand_intakeLe ({ s with command := { s.command with intake := rest } } : State) e
        have le : _ ≤ rest.length := le
        exact pump_enough m n _ (by omega) (by omega)
      · rfl

/-- What taking every command that may be taken comes to: nothing with an empty FIFO, or with a head that may not
be taken; else the head is taken, and then the rest (R163). -/
theorem pumpAll_cases (s : State) :
    (s.command.intake = [] → s.pumpAll = s)
    ∧ ∀ e rest, s.command.intake = e :: rest →
      (s.mayTake e.broadcast = false → s.pumpAll = s)
      ∧ (s.mayTake e.broadcast = true → s.pumpAll =
        (({ s with command := { s.command with intake := rest } } : State).takeCommand e).pumpAll) := by
  refine ⟨fun h => by simp [State.pumpAll, h, State.pump], fun e rest h => ⟨fun hm => ?_, fun hm => ?_⟩⟩
  · simp [State.pumpAll, h, State.pump, hm]
  · have le := takeCommand_intakeLe ({ s with command := { s.command with intake := rest } } : State) e
    have le : _ ≤ rest.length := le
    show s.pump s.command.intake.length = _
    rw [h, List.length_cons]
    unfold State.pump
    rw [h]
    simp only [hm, if_true]
    exact pump_enough _ _ _ le le_rfl

theorem intakeJoin_keeps (s : State) (e : IntakeEntry) : Keeps s (s.intakeJoin e) := by
  unfold State.intakeJoin
  split
  · refine Keeps.trans ?_ (Work.refl.notify _).sound.keeps
    exact ⟨id, id, id, id, id, id, fun g => g.of_eq rfl rfl rfl rfl rfl, id, fun _ g => g.of_eq rfl⟩
  · refine ⟨id, id, id, id, fun _ => ?_, id, fun g => g.of_eq rfl rfl rfl rfl rfl, id, fun _ g => g.of_eq rfl⟩
    simp; omega

theorem issue_keeps (s : State) (src : Nat) (p : List Byte) {f : State → Answer}
    (h : Sound s (f s).state) : Keeps s (s.issue src p f) := by
  unfold State.issue
  split
  · rename_i hm
    simp only [Bool.and_eq_true] at hm
    exact placed_keeps _ h _ _ (by simpa [State.mayTake] using hm.2)
  · exact (intakeJoin_keeps s _).trans (pumpAll_keeps _)

theorem issueBroadcast_keeps (s : State) (src : Nat) (p : List Byte) {f : State → State}
    (h : Sound s (f s)) : Keeps s (s.issueBroadcast src p f) := by
  unfold State.issueBroadcast
  split
  · exact h.keeps
  · exact (intakeJoin_keeps s _).trans (pumpAll_keeps _)

/-! ## The arbiter and the end of an event (R145, R74, R86) -/

theorem sendFrom_sound {s t : State} {x : Source} (h : s.sendFrom x = some t) : Sound s t := by
  cases x <;> simp only [State.sendFrom] at h <;> split at h <;> cases h
  · rename_i e
    exact ⟨⟨fun g => by rw [e] at g; exact Nat.le_of_lt g, id, id, id, id, id,
      fun g => g.of_eq rfl rfl rfl rfl rfl, id, fun _ g => g.of_eq rfl⟩, le_rfl, le_rfl⟩
  · rename_i e
    exact ⟨⟨id, fun g => by rw [e] at g; exact (List.nodup_cons.1 g).2, id, id, id, id,
      fun g => g.of_eq rfl rfl rfl rfl rfl, id, fun _ g => g.of_eq rfl⟩, le_rfl, le_rfl⟩
  · rename_i e
    exact ⟨⟨id, id, fun g => by rw [e] at g; exact Nat.le_of_lt g, id, id, id,
      fun g => g.of_eq rfl rfl rfl rfl rfl, id, fun _ g => g.of_eq rfl⟩, by rw [e]; exact Nat.le_succ _, le_rfl⟩
  · rename_i e
    exact ⟨⟨id, id, id, fun g => by rw [e] at g; exact noticesOk_tail g, id, id,
      fun g => g.of_eq rfl rfl rfl rfl rfl, id, fun _ g => g.of_eq rfl⟩, le_rfl, le_rfl⟩

theorem sendFirst_sound (s : State) (xs : List Source) : Sound s (s.sendFirst xs) := by
  induction xs with
  | nil => exact .refl s
  | cons x xs ih =>
    unfold State.sendFirst
    split
    · exact sendFrom_sound ‹_›
    · exact ih

theorem arbitrate_sound (s : State) : Sound s s.arbitrate := by
  unfold State.arbitrate; split
  · exact .refl s
  · exact sendFirst_sound s _

theorem idleTests_work (s₀ s : State) : Work s (State.idleTests s₀ s) := by
  unfold State.idleTests
  refine Work.refl.fold fun t k h => ?_
  split
  · exact h.idleTest k
  · exact h

theorem showDisplays_work (s₀ s : State) : Work s (State.showDisplays s₀ s) := by
  unfold State.showDisplays
  refine Work.refl.fold fun t k h => ?_
  unfold State.showDisplay
  split
  · exact h.queueField _ _
  · exact h

theorem finish_sound (s₀ s : State) : Sound s (State.finish s₀ s) :=
  ((idleTests_work s₀ s).trans (showDisplays_work s₀ _)).sound.trans (arbitrate_sound _)

end Sys2Proof.Machine
end

