-- ==== Sys2Proof/Laws/Spelling.lean ====
section
/-! SUPPORT. Bytes and numbers: what the fields of a payload read back as, and how long they are. -/

namespace Sys2Proof.Machine

@[simp] theorem be1_length (n : Nat) : (be1 n).length = 1 := rfl
@[simp] theorem be2_length (n : Nat) : (be2 n).length = 2 := rfl
@[simp] theorem be3_length (n : Nat) : (be3 n).length = 3 := rfl
@[simp] theorem be4_length (n : Nat) : (be4 n).length = 4 := rfl
@[simp] theorem yesNo_length (b : Bool) : (yesNo b).length = 1 := rfl

theorem byteOf_toNat (n : Nat) : (byteOf n).toNat = n % 256 := by simp [byteOf]

@[simp] theorem packedLanes_length (lane : Nat → Option Nat) : (packedLanes lane).length = 5 := rfl

/-- The five bits of each position read back from the five bytes. -/
theorem packedLanes_read (lane : Nat → Option Nat) {x : Nat} (h : x < 8) :
    (packedLanes lane).foldl (fun n b => n * 256 + b.toNat) 0 / 32 ^ (7 - x) % 32 = (lane x).getD 255 % 32 := by
  have below : ∀ x, (lane x).getD 255 % 32 < 32 := fun x => Nat.mod_lt _ (by decide)
  have := below 0; have := below 1; have := below 2; have := below 3
  have := below 4; have := below 5; have := below 6; have := below 7
  have number : (packedLanes lane).foldl (fun n b => n * 256 + b.toNat) 0
      = (List.range 8).foldl (fun n x => n * 32 + (lane x).getD 255 % 32) 0 := by
    simp only [packedLanes, be1, be4, List.cons_append, List.nil_append, List.foldl_cons, List.foldl_nil, byteOf_toNat,
      List.range, List.range.loop]
    omega
  rw [number]
  simp only [List.range, List.range.loop, List.foldl_cons, List.foldl_nil]
  obtain rfl | rfl | rfl | rfl | rfl | rfl | rfl | rfl : x = 0 ∨ x = 1 ∨ x = 2 ∨ x = 3 ∨ x = 4 ∨ x = 5 ∨ x = 6 ∨ x = 7 := by
    omega
  all_goals norm_num only; omega

@[simp] theorem Presentation.bytes_length (pr : Presentation) : pr.bytes.length = 14 := rfl

theorem Port.presentationGroup_length (p : Port) : p.presentationGroup.length = 14 := by
  unfold presentationGroup; split <;> rfl

/-- The PORT record fits a reply's 54 bytes. -/
theorem Port.bytes_length (p : Port) (h : p.display.indicators.length = 8) : p.bytes.length = 52 := by
  have put : (putawayBytes p.putaway).length = 11 := by cases p.putaway <;> rfl
  simp only [bytes, Display.bytes, timerMark, optEnum, List.length_append, List.length_map, List.length_singleton,
    be1_length, be2_length, yesNo_length, put, h, p.presentationGroup_length]

/-- A value of one byte reads back. -/
theorem byteOf_read {n : Nat} (h : byte1 n = true) : (byteOf n).toNat = n := by
  simp only [byte1, decide_eq_true_eq] at h
  rw [byteOf_toNat]; omega

/-- A value of two bytes reads back. -/
theorem num2_read {n : Nat} (h : byte2 n = true) : num2 (byteOf (n / 256)) (byteOf n) = n := by
  simp only [byte2, decide_eq_true_eq] at h
  simp only [num2, byteOf_toNat]; omega

/-- A value of three bytes reads back. -/
theorem num3_read {n : Nat} (h : byte3 n = true) :
    num3 (byteOf (n / 65536)) (byteOf (n / 256)) (byteOf n) = n := by
  simp only [byte3, decide_eq_true_eq] at h
  simp only [num3, num2, byteOf_toNat]; omega

/-- A value of four bytes reads back. -/
theorem num4_read {n : Nat} (h : byte4 n = true) :
    num4 (byteOf (n / 16777216)) (byteOf (n / 65536)) (byteOf (n / 256)) (byteOf n) = n := by
  simp only [byte4, decide_eq_true_eq] at h
  simp only [num4, num3, num2, byteOf_toNat]; omega

/-- A yes or no reads back. -/
@[simp] theorem flagOf_read (b : Bool) : flagOf (if b = true then 1 else 0) = b := by cases b <;> rfl

/-- The records of LOAD-SLOTS and the lines of ORDER, in bytes. -/
theorem slotArgs_length (rs : List SlotArg) : (rs.flatMap slotArgBytes).length = 12 * rs.length := by
  induction rs with
  | nil => rfl
  | cons r rs ih => simp [slotArgBytes, ih]; omega

theorem lineArgs_length (ls : List LineArg) : (ls.flatMap lineArgBytes).length = 5 * ls.length := by
  induction ls with
  | nil => rfl
  | cons l ls ih => simp [lineArgBytes, ih]; omega

end Sys2Proof.Machine
end

