-- ==== Sys2Proof/Laws/PerInstr.lean ====
section
/-! SUPPORT. The family CommandSpelling, one lemma per row: a well-formed row's COMMAND payload fits in a telegram
(R177), and its source is a node. -/

namespace Sys2Proof.Laws.CommandSpelling

set_option Elab.async false

/-- The payload of a well-formed row fits in a telegram, and its source is a node. -/
def Statement (i : Instr) : Prop :=
  i.wellFormed = true →
    (Machine.commandPayload i).length ≤ 56 ∧ ∀ src, i.commandSource = some src → src < 64

/-- A row that is no command. -/
theorem of_none {i : Instr} (hp : Machine.commandPayload i = []) (hs : i.commandSource = none) :
    Statement i := fun _ => by simp [hp, hs]

/-- A command of a fixed layout. -/
theorem of_fixed {i : Instr} {n : Nat} (hp : (Machine.commandPayload i).length ≤ 56)
    (hs : i.commandSource = some n) (hn : i.wellFormed = true → nodeField n = true) : Statement i := by
  intro h
  refine ⟨hp, fun src e => ?_⟩
  rw [hs] at e
  cases e
  simpa [nodeField] using hn h

theorem resetAsserted : Statement (.resetAsserted) := of_none rfl rfl
theorem powerOn (adr : Nat) (svc : Bool) : Statement (.powerOn adr svc) := of_none rfl rfl
theorem frameError (cause : FrameFault) : Statement (.frameError cause) := of_none rfl rfl
theorem telegramReceived (telegram : Telegram) (check : BitVec 16) : Statement (.telegramReceived telegram check) := of_none rfl rfl
theorem transmissionComplete : Statement (.transmissionComplete) := of_none rfl rfl
theorem badCommandNumber (src : Nat) (payload : List Byte) : Statement (.badCommandNumber src payload) := by
  intro h
  simp only [Instr.wellFormed, Bool.and_eq_true, payloadFits, decide_eq_true_eq] at h
  refine ⟨?_, fun x e => ?_⟩
  · simpa [Machine.commandPayload] using h.1.2
  · cases e; simpa [nodeField] using (by simp only [h] : nodeField src = true)
theorem identify (src : Nat) : Statement (.identify src) :=
  of_fixed (by simp [Machine.commandPayload]) rfl fun h => h
theorem query (src kind selA selB : Nat) : Statement (.query src kind selA selB) :=
  of_fixed (by simp [Machine.commandPayload]) rfl fun h => by
    simp only [Instr.wellFormed, Bool.and_eq_true] at h; simp only [h]
theorem readAuditLog (src : Nat) : Statement (.readAuditLog src) :=
  of_fixed (by simp [Machine.commandPayload]) rfl fun h => h
theorem setCalendar (src week year : Nat) : Statement (.setCalendar src week year) :=
  of_fixed (by simp [Machine.commandPayload]) rfl fun h => by
    simp only [Instr.wellFormed, Bool.and_eq_true] at h; simp only [h]
theorem setCalendarBroadcast (src week year : Nat) : Statement (.setCalendarBroadcast src week year) := fun _ =>
  ⟨by simp [Machine.commandPayload], fun _ e => by cases e⟩
theorem setNotices (src : Nat) (order lane port motion audit stock : Bool) : Statement (.setNotices src order lane port motion audit stock) :=
  of_fixed (by simp [Machine.commandPayload]) rfl fun h => h
theorem configureCarousel (src carousel n p : Nat) (bidirectional : Bool) (drive port gate : Nat) : Statement (.configureCarousel src carousel n p bidirectional drive port gate) :=
  of_fixed (by simp [Machine.commandPayload]) rfl fun h => by
    simp only [Instr.wellFormed, Bool.and_eq_true] at h; simp only [h]
theorem setZoneMap (src carousel first : Nat) (zones : List Nat) : Statement (.setZoneMap src carousel first zones) := by
  intro h
  simp only [Instr.wellFormed, Bool.and_eq_true, decide_eq_true_eq] at h
  refine ⟨?_, fun x e => ?_⟩
  · simp [Machine.commandPayload]; omega
  · cases e; simpa [nodeField] using (by simp only [h] : nodeField src = true)
theorem setTiming (src carousel : Nat) (override : Bool) (value dwell delay bypass : Nat) : Statement (.setTiming src carousel override value dwell delay bypass) :=
  of_fixed (by simp [Machine.commandPayload]) rfl fun h => by
    simp only [Instr.wellFormed, Bool.and_eq_true] at h; simp only [h]
theorem carouselOnline (src carousel : Nat) : Statement (.carouselOnline src carousel) :=
  of_fixed (by simp [Machine.commandPayload]) rfl fun h => by
    simp only [Instr.wellFormed, Bool.and_eq_true] at h; simp only [h]
theorem carouselOffline (src carousel : Nat) : Statement (.carouselOffline src carousel) :=
  of_fixed (by simp [Machine.commandPayload]) rfl fun h => by
    simp only [Instr.wellFormed, Bool.and_eq_true] at h; simp only [h]
theorem clearFault (src carousel : Nat) : Statement (.clearFault src carousel) :=
  of_fixed (by simp [Machine.commandPayload]) rfl fun h => by
    simp only [Instr.wellFormed, Bool.and_eq_true] at h; simp only [h]
theorem reclaim (src carousel : Nat) : Statement (.reclaim src carousel) :=
  of_fixed (by simp [Machine.commandPayload]) rfl fun h => by
    simp only [Instr.wellFormed, Bool.and_eq_true] at h; simp only [h]
theorem replanCarousel (src carousel : Nat) : Statement (.replanCarousel src carousel) :=
  of_fixed (by simp [Machine.commandPayload]) rfl fun h => by
    simp only [Instr.wellFormed, Bool.and_eq_true] at h; simp only [h]
theorem jogRequest (src carousel steps direction : Nat) : Statement (.jogRequest src carousel steps direction) :=
  of_fixed (by simp [Machine.commandPayload]) rfl fun h => by
    simp only [Instr.wellFormed, Bool.and_eq_true] at h; simp only [h]
theorem setPort (src carousel : Nat) (autoCall emptyHints : Bool) (display report timeout : Nat) : Statement (.setPort src carousel autoCall emptyHints display report timeout) :=
  of_fixed (by simp [Machine.commandPayload]) rfl fun h => by
    simp only [Instr.wellFormed, Bool.and_eq_true] at h; simp only [h]
theorem portMode (src carousel mode : Nat) : Statement (.portMode src carousel mode) :=
  of_fixed (by simp [Machine.commandPayload]) rfl fun h => by
    simp only [Instr.wellFormed, Bool.and_eq_true] at h; simp only [h]
theorem loadSlots (src : Nat) (records : List SlotArg) : Statement (.loadSlots src records) := by
  intro h
  simp only [Instr.wellFormed, Bool.and_eq_true, decide_eq_true_eq] at h
  refine ⟨?_, fun x e => ?_⟩
  · simp only [Machine.commandPayload, List.length_cons, List.length_append, Machine.be1_length,
      Machine.slotArgs_length]; omega
  · cases e; simpa [nodeField] using (by simp only [h] : nodeField src = true)
theorem holdReleaseAccept (src slot : Nat) : Statement (.holdReleaseAccept src slot) :=
  of_fixed (by simp [Machine.commandPayload]) rfl fun h => by
    simp only [Instr.wellFormed, Bool.and_eq_true] at h; simp only [h]
theorem holdReleaseClear (src slot : Nat) : Statement (.holdReleaseClear src slot) :=
  of_fixed (by simp [Machine.commandPayload]) rfl fun h => by
    simp only [Instr.wellFormed, Bool.and_eq_true] at h; simp only [h]
theorem holdReleaseSet (src slot tag article week year : Nat) : Statement (.holdReleaseSet src slot tag article week year) :=
  of_fixed (by simp [Machine.commandPayload]) rfl fun h => by
    simp only [Instr.wellFormed, Bool.and_eq_true] at h; simp only [h]
theorem bankCopy (src : Nat) : Statement (.bankCopy src) :=
  of_fixed (by simp [Machine.commandPayload]) rfl fun h => h
theorem loadOpen (src table mode : Nat) : Statement (.loadOpen src table mode) :=
  of_fixed (by simp [Machine.commandPayload]) rfl fun h => by
    simp only [Instr.wellFormed, Bool.and_eq_true] at h; simp only [h]
theorem loadRecord (src count : Nat) (bytes : List Byte) : Statement (.loadRecord src count bytes) := by
  intro h
  simp only [Instr.wellFormed, Bool.and_eq_true, decide_eq_true_eq] at h
  refine ⟨?_, fun x e => ?_⟩
  · simp [Machine.commandPayload]; omega
  · cases e; simpa [nodeField] using (by simp only [h] : nodeField src = true)
theorem loadClose (src : Nat) (expected : BitVec 32) : Statement (.loadClose src expected) :=
  of_fixed (by simp [Machine.commandPayload]) rfl fun h => h
theorem bankSwitch (src : Nat) : Statement (.bankSwitch src) :=
  of_fixed (by simp [Machine.commandPayload]) rfl fun h => h
theorem order (src id priority chain : Nat) (continues : Bool) (policy limit : Nat) (lines : List LineArg) : Statement (.order src id priority chain continues policy limit lines) := by
  intro h
  simp only [Instr.wellFormed, Bool.and_eq_true, decide_eq_true_eq] at h
  refine ⟨?_, fun x e => ?_⟩
  · simp only [Machine.commandPayload, List.length_cons, List.length_append, Machine.be1_length,
      Machine.be2_length, Machine.yesNo_length, Machine.lineArgs_length]; omega
  · cases e; simpa [nodeField] using (by simp only [h] : nodeField src = true)
theorem orderCancel (src id : Nat) : Statement (.orderCancel src id) :=
  of_fixed (by simp [Machine.commandPayload]) rfl fun h => by
    simp only [Instr.wellFormed, Bool.and_eq_true] at h; simp only [h]
theorem shortClose (src id : Nat) (endChain : Bool) : Statement (.shortClose src id endChain) :=
  of_fixed (by simp [Machine.commandPayload]) rfl fun h => by
    simp only [Instr.wellFormed, Bool.and_eq_true] at h; simp only [h]
theorem setLanes (src node timeout : Nat) : Statement (.setLanes src node timeout) :=
  of_fixed (by simp [Machine.commandPayload]) rfl fun h => by
    simp only [Instr.wellFormed, Bool.and_eq_true] at h; simp only [h]
theorem laneRelease (src lane : Nat) (force : Bool) : Statement (.laneRelease src lane force) :=
  of_fixed (by simp [Machine.commandPayload]) rfl fun h => by
    simp only [Instr.wellFormed, Bool.and_eq_true] at h; simp only [h]
theorem laneClearForeign (src lane : Nat) : Statement (.laneClearForeign src lane) :=
  of_fixed (by simp [Machine.commandPayload]) rfl fun h => by
    simp only [Instr.wellFormed, Bool.and_eq_true] at h; simp only [h]
theorem auditSet (src carousel mode : Nat) (zones : BitVec 16) (quota : Nat) (autoCorrect : Bool) : Statement (.auditSet src carousel mode zones quota autoCorrect) :=
  of_fixed (by simp [Machine.commandPayload]) rfl fun h => by
    simp only [Instr.wellFormed, Bool.and_eq_true] at h; simp only [h]
theorem restartOps (src : Nat) : Statement (.restartOps src) :=
  of_fixed (by simp [Machine.commandPayload]) rfl fun h => h
theorem restartAll (src : Nat) : Statement (.restartAll src) :=
  of_fixed (by simp [Machine.commandPayload]) rfl fun h => h
theorem position (k : CarouselNo) (carrier : Nat) : Statement (.position k carrier) := of_none rfl rfl
theorem arrived (k : CarouselNo) (carrier : Nat) : Statement (.arrived k carrier) := of_none rfl rfl
theorem driveStatus (k : CarouselNo) (commander fault : Option Nat) : Statement (.driveStatus k commander fault) := of_none rfl rfl
theorem foreignMotionTelegram (k : CarouselNo) (source : Nat) : Statement (.foreignMotionTelegram k source) := of_none rfl rfl
theorem returnedMotionTelegram (k : CarouselNo) : Statement (.returnedMotionTelegram k) := of_none rfl rfl
theorem curtain (k : CarouselNo) (broken : Bool) : Statement (.curtain k broken) := of_none rfl rfl
theorem moveTimerExpiry (k : CarouselNo) : Statement (.moveTimerExpiry k) := of_none rfl rfl
theorem resumeDwellExpiry (k : CarouselNo) : Statement (.resumeDwellExpiry k) := of_none rfl rfl
theorem idleSweepExpiry (k : CarouselNo) : Statement (.idleSweepExpiry k) := of_none rfl rfl
theorem ready (k : CarouselNo) : Statement (.ready k) := of_none rfl rfl
theorem scan (k : CarouselNo) (tag article week year : Nat) : Statement (.scan k tag article week year) := of_none rfl rfl
theorem placed (k : CarouselNo) (position : Nat) : Statement (.placed k position) := of_none rfl rfl
theorem skip (k : CarouselNo) : Statement (.skip k) := of_none rfl rfl
theorem presentationTimerExpiry (k : CarouselNo) : Statement (.presentationTimerExpiry k) := of_none rfl rfl
theorem returnedDisplay (k : CarouselNo) : Statement (.returnedDisplay k) := of_none rfl rfl
theorem putawayWithdrawn (k : CarouselNo) (slot : Nat) : Statement (.putawayWithdrawn k slot) := of_none rfl rfl
theorem putawayFoundElsewhere (k : CarouselNo) (slot found : Nat) : Statement (.putawayFoundElsewhere k slot found) := of_none rfl rfl
theorem planningStep (order line : Nat) : Statement (.planningStep order line) := of_none rfl rfl
theorem replan (order line : Nat) (cause : ReplanCause) : Statement (.replan order line cause) := of_none rfl rfl
theorem release (slot order line : Nat) : Statement (.release slot order line) := of_none rfl rfl
theorem wakeUp (article : Nat) : Statement (.wakeUp article) := of_none rfl rfl
theorem waitTimerExpiry (order line : Nat) : Statement (.waitTimerExpiry order line) := of_none rfl rfl
theorem arrive (lane tag : Nat) : Statement (.arrive lane tag) := of_none rfl rfl
theorem transitTimerExpiry (lane entry : Nat) : Statement (.transitTimerExpiry lane entry) := of_none rfl rfl
theorem laneEmpty (lane : Nat) : Statement (.laneEmpty lane) := of_none rfl rfl
theorem returnedLaneOpen (lane : Nat) : Statement (.returnedLaneOpen lane) := of_none rfl rfl
theorem gate (k : CarouselNo) (carrier : Nat) (tags : List Nat) : Statement (.gate k carrier tags) := of_none rfl rfl
theorem sessionTimerExpiry : Statement (.sessionTimerExpiry) := of_none rfl rfl
theorem pickRequest (k : CarouselNo) (tag order line : Nat) : Statement (.pickRequest k tag order line) := of_none rfl rfl
theorem substitutionRequest (k : CarouselNo) (taken given : Nat) : Statement (.substitutionRequest k taken given) := of_none rfl rfl

end Sys2Proof.Laws.CommandSpelling
end

