-- ==== Sys2Proof/Laws/Receiver.lean ====
section
/-! SUPPORT. The line (R135, R176): the small lemmas of the receiver's operations, and that levels sent are
received as the symbols they stand for. -/

namespace Sys2Proof.Machine

@[simp] theorem State.setReceiver_receiver (s : State) (r : Receiver) : (s.setReceiver r).ring.receiver = r := rfl
@[simp] theorem State.setReceiver_lineBits (s : State) (r : Receiver) :
    (s.setReceiver r).ring.lineBits = s.ring.lineBits := rfl
@[simp] theorem State.setReceiver_pending (s : State) (r : Receiver) : (s.setReceiver r).pending = s.pending := rfl
@[simp] theorem State.setReceiver_resetHeld (s : State) (r : Receiver) :
    (s.setReceiver r).resetHeld = s.resetHeld := rfl
@[simp] theorem State.setLineBits_receiver (s : State) (b : List Bool) :
    (s.setLineBits b).ring.receiver = s.ring.receiver := rfl
@[simp] theorem State.setLineBits_lineBits (s : State) (b : List Bool) : (s.setLineBits b).ring.lineBits = b := rfl
@[simp] theorem State.setLineBits_pending (s : State) (b : List Bool) : (s.setLineBits b).pending = s.pending := rfl
@[simp] theorem State.setLineBits_resetHeld (s : State) (b : List Bool) :
    (s.setLineBits b).resetHeld = s.resetHeld := rfl
@[simp] theorem State.raise_ring (s : State) (c : Instr) : (s.raise c).ring = s.ring := rfl
@[simp] theorem State.raise_pending (s : State) (c : Instr) : (s.raise c).pending = s.pending ++ [c] := rfl
@[simp] theorem State.raise_resetHeld (s : State) (c : Instr) : (s.raise c).resetHeld = s.resetHeld := rfl
@[simp] theorem State.setLineBits_same (s : State) (h : s.ring.lineBits = []) : s.setLineBits [] = s := by
  rw [← h]; rfl

theorem Symbol.levels_length (x : Symbol) : x.levels.length = 10 := by cases x <;> simp [Symbol.levels]

/-- The levels of a symbol are received as that symbol. -/
theorem readSymbol_levels (x : Symbol) : readSymbol x.levels = some x := by
  cases x with
  | marker => decide
  | data b =>
    have h : readSymbol (Symbol.data b).levels
        = some (.data (BitVec.ofNat 8 (levelsValue (Symbol.data b).levels / 2))) := by
      simp [readSymbol, Symbol.levels, List.range, List.range.loop]
    rw [h]
    revert b; decide +kernel

/-- Between symbols, fewer than ten levels that begin low wait for the rest of their symbol. -/
theorem State.feedLevels_waits (s : State) (h : s.resetHeld = false) :
    ∀ bits more : List Bool, s.ring.lineBits = bits → bits ≠ [] → bits.length + more.length ≤ 9 →
      s.feedLevels more = s.setLineBits (bits ++ more) := by
  intro bits more
  induction more generalizing s bits with
  | nil => intro hb _ _; simp only [State.feedLevels, List.foldl_nil, List.append_nil]; rw [← hb]; rfl
  | cons x more ih =>
    intro hb hn hl
    have e : s.feedLevel x = s.setLineBits (bits ++ [x]) := by
      simp only [List.length_cons] at hl
      unfold State.feedLevel
      rw [if_neg (by simp [h]), if_neg (by simp [hb, hn]), if_pos (by rw [hb]; omega), hb]
    show (s.feedLevel x).feedLevels more = _
    rw [e, ih _ (by simpa using h) (bits ++ [x]) rfl (by simp) (by simp at hl ⊢; omega)]
    simp [State.setLineBits]

/-- Between symbols the ten levels of a symbol are that symbol (R176). -/
theorem State.feedLevels_symbol (s : State) (x : Symbol) (h : s.ring.lineBits = []) :
    s.feedLevels x.levels = s.feedSymbol x := by
  cases hr : s.resetHeld with
  | true =>
    have stay : ∀ bits : List Bool, s.feedLevels bits = s := by
      intro bits
      induction bits with
      | nil => rfl
      | cons b bits ih => show (s.feedLevel b).feedLevels bits = s; simpa [State.feedLevel, hr] using ih
    rw [stay]; simp [State.feedSymbol, hr]
  | false =>
    obtain ⟨mid, last, e, hm⟩ : ∃ mid last, x.levels = false :: mid ++ [last] ∧ mid.length = 8 := by
      cases x with
      | marker => exact ⟨List.replicate 8 false, false, rfl, rfl⟩
      | data b => exact ⟨(List.range 8).map b.getLsbD, true, by simp [Symbol.levels], by simp⟩
    have read := readSymbol_levels x
    have h1 : s.feedLevel false = s.setLineBits [false] := by simp [State.feedLevel, hr, h]
    have h2 := State.feedLevels_waits (s.setLineBits [false]) (by simpa using hr) [false] mid rfl (by simp)
      (by simp [hm])
    rw [e] at read ⊢
    have split : s.feedLevels (false :: mid ++ [last]) = ((s.feedLevel false).feedLevels mid).feedLevel last := by
      simp [State.feedLevels]
    rw [split, h1, h2]
    unfold State.feedLevel
    rw [if_neg (by simp [hr]), if_neg (by simp), if_neg (by simp [hm])]
    simp only [State.setLineBits_lineBits]
    unfold State.feedRead
    rw [show [false] ++ mid ++ [last] = false :: mid ++ [last] from rfl, read]
    dsimp only
    rw [show ((s.setLineBits [false]).setLineBits ([false] ++ mid)).setLineBits [] = s.setLineBits [] from rfl,
      State.setLineBits_same s h]

/-- Between symbols the idle line is received as nothing. -/
theorem State.feedLevel_idle (s : State) (h : s.ring.lineBits = []) : s.feedLevel true = s := by
  unfold State.feedLevel; split
  · rfl
  · simp [h]

/-- A symbol leaves the levels between symbols as they were. -/
@[simp] theorem State.feedSymbol_lineBits (s : State) (x : Symbol) :
    (s.feedSymbol x).ring.lineBits = s.ring.lineBits := by
  unfold State.feedSymbol
  repeat' split
  all_goals first | rfl | (unfold State.assemble; repeat' split) <;> rfl

/-- The levels of symbols back to back are those symbols (R176). -/
theorem State.feedLevels_symbols (s : State) (xs : List Symbol) (h : s.ring.lineBits = []) :
    s.feedLevels (xs.flatMap Symbol.levels) = xs.foldl State.feedSymbol s := by
  induction xs generalizing s with
  | nil => rfl
  | cons x xs ih =>
    have e : s.feedLevels ((x :: xs).flatMap Symbol.levels)
        = (s.feedLevels x.levels).feedLevels (xs.flatMap Symbol.levels) := by
      simp [State.feedLevels, List.foldl_append]
    rw [e, s.feedLevels_symbol x h, ih _ (by simpa using h)]
    rfl

end Sys2Proof.Machine
end

