-- ==== Sys2Proof/Laws/Rows.lean ====
section
/-! SUPPORT. Each row's meaning in one equation: the shared operation it is, and the effect it gives it. -/

namespace Sys2Proof.Machine

@[simp] theorem exec_resetAsserted (s : State) :
    exec (.resetAsserted) s = .next s.heldInReset := rfl
@[simp] theorem exec_powerOn (adr : Nat) (svc : Bool) (s : State) :
    exec (.powerOn adr svc) s = .next (s.poweredOn adr svc) := rfl
@[simp] theorem exec_frameError (cause : FrameFault) (s : State) :
    exec (.frameError cause) s = lineEvent State.countFrameError s := rfl
@[simp] theorem exec_telegramReceived (telegram : Telegram) (check : BitVec 16) (s : State) :
    exec (.telegramReceived telegram check) s = lineEvent (fun t => t.receive telegram check) s := rfl
@[simp] theorem exec_transmissionComplete (s : State) :
    exec (.transmissionComplete) s = lineEvent State.endTransmission s := rfl
@[simp] theorem exec_badCommandNumber (src : Nat) (payload : List Byte) (s : State) :
    exec (.badCommandNumber src payload) s = served (fun t => t.issue src payload (payloadAnswer src payload)) s := rfl
@[simp] theorem exec_identify (src : Nat) (s : State) :
    exec (.identify src) s = command (.identify src) src s := rfl
@[simp] theorem exec_query (src kind selA selB : Nat) (s : State) :
    exec (.query src kind selA selB) s = command (.query src kind selA selB) src s := rfl
@[simp] theorem exec_readAuditLog (src : Nat) (s : State) :
    exec (.readAuditLog src) s = command (.readAuditLog src) src s := rfl
@[simp] theorem exec_setCalendar (src week year : Nat) (s : State) :
    exec (.setCalendar src week year) s = command (.setCalendar src week year) src s := rfl
@[simp] theorem exec_setCalendarBroadcast (src week year : Nat) (s : State) :
    exec (.setCalendarBroadcast src week year) s = served (fun t => t.issueBroadcast src (commandPayload (.setCalendarBroadcast src week year)) (fun u => u.broadcastCalendar week year)) s := rfl
@[simp] theorem exec_setNotices (src : Nat) (order lane port motion audit stock : Bool) (s : State) :
    exec (.setNotices src order lane port motion audit stock) s = command (.setNotices src order lane port motion audit stock) src s := rfl
@[simp] theorem exec_configureCarousel (src carousel n p : Nat) (bidirectional : Bool) (drive port gate : Nat) (s : State) :
    exec (.configureCarousel src carousel n p bidirectional drive port gate) s = command (.configureCarousel src carousel n p bidirectional drive port gate) src s := rfl
@[simp] theorem exec_setZoneMap (src carousel first : Nat) (zones : List Nat) (s : State) :
    exec (.setZoneMap src carousel first zones) s = command (.setZoneMap src carousel first zones) src s := rfl
@[simp] theorem exec_setTiming (src carousel : Nat) (override : Bool) (value dwell delay bypass : Nat) (s : State) :
    exec (.setTiming src carousel override value dwell delay bypass) s = command (.setTiming src carousel override value dwell delay bypass) src s := rfl
@[simp] theorem exec_carouselOnline (src carousel : Nat) (s : State) :
    exec (.carouselOnline src carousel) s = command (.carouselOnline src carousel) src s := rfl
@[simp] theorem exec_carouselOffline (src carousel : Nat) (s : State) :
    exec (.carouselOffline src carousel) s = command (.carouselOffline src carousel) src s := rfl
@[simp] theorem exec_clearFault (src carousel : Nat) (s : State) :
    exec (.clearFault src carousel) s = command (.clearFault src carousel) src s := rfl
@[simp] theorem exec_reclaim (src carousel : Nat) (s : State) :
    exec (.reclaim src carousel) s = command (.reclaim src carousel) src s := rfl
@[simp] theorem exec_replanCarousel (src carousel : Nat) (s : State) :
    exec (.replanCarousel src carousel) s = command (.replanCarousel src carousel) src s := rfl
@[simp] theorem exec_jogRequest (src carousel steps direction : Nat) (s : State) :
    exec (.jogRequest src carousel steps direction) s = command (.jogRequest src carousel steps direction) src s := rfl
@[simp] theorem exec_setPort (src carousel : Nat) (autoCall emptyHints : Bool) (display report timeout : Nat) (s : State) :
    exec (.setPort src carousel autoCall emptyHints display report timeout) s = command (.setPort src carousel autoCall emptyHints display report timeout) src s := rfl
@[simp] theorem exec_portMode (src carousel mode : Nat) (s : State) :
    exec (.portMode src carousel mode) s = command (.portMode src carousel mode) src s := rfl
@[simp] theorem exec_loadSlots (src : Nat) (records : List SlotArg) (s : State) :
    exec (.loadSlots src records) s = command (.loadSlots src records) src s := rfl
@[simp] theorem exec_holdReleaseAccept (src slot : Nat) (s : State) :
    exec (.holdReleaseAccept src slot) s = command (.holdReleaseAccept src slot) src s := rfl
@[simp] theorem exec_holdReleaseClear (src slot : Nat) (s : State) :
    exec (.holdReleaseClear src slot) s = command (.holdReleaseClear src slot) src s := rfl
@[simp] theorem exec_holdReleaseSet (src slot tag article week year : Nat) (s : State) :
    exec (.holdReleaseSet src slot tag article week year) s = command (.holdReleaseSet src slot tag article week year) src s := rfl
@[simp] theorem exec_bankCopy (src : Nat) (s : State) :
    exec (.bankCopy src) s = command (.bankCopy src) src s := rfl
@[simp] theorem exec_loadOpen (src table mode : Nat) (s : State) :
    exec (.loadOpen src table mode) s = command (.loadOpen src table mode) src s := rfl
@[simp] theorem exec_loadRecord (src count : Nat) (bytes : List Byte) (s : State) :
    exec (.loadRecord src count bytes) s = command (.loadRecord src count bytes) src s := rfl
@[simp] theorem exec_loadClose (src : Nat) (expected : BitVec 32) (s : State) :
    exec (.loadClose src expected) s = command (.loadClose src expected) src s := rfl
@[simp] theorem exec_bankSwitch (src : Nat) (s : State) :
    exec (.bankSwitch src) s = command (.bankSwitch src) src s := rfl
@[simp] theorem exec_order (src id priority chain : Nat) (continues : Bool) (policy limit : Nat) (lines : List LineArg) (s : State) :
    exec (.order src id priority chain continues policy limit lines) s = command (.order src id priority chain continues policy limit lines) src s := rfl
@[simp] theorem exec_orderCancel (src id : Nat) (s : State) :
    exec (.orderCancel src id) s = command (.orderCancel src id) src s := rfl
@[simp] theorem exec_shortClose (src id : Nat) (endChain : Bool) (s : State) :
    exec (.shortClose src id endChain) s = command (.shortClose src id endChain) src s := rfl
@[simp] theorem exec_setLanes (src node timeout : Nat) (s : State) :
    exec (.setLanes src node timeout) s = command (.setLanes src node timeout) src s := rfl
@[simp] theorem exec_laneRelease (src lane : Nat) (force : Bool) (s : State) :
    exec (.laneRelease src lane force) s = command (.laneRelease src lane force) src s := rfl
@[simp] theorem exec_laneClearForeign (src lane : Nat) (s : State) :
    exec (.laneClearForeign src lane) s = command (.laneClearForeign src lane) src s := rfl
@[simp] theorem exec_auditSet (src carousel mode : Nat) (zones : BitVec 16) (quota : Nat) (autoCorrect : Bool) (s : State) :
    exec (.auditSet src carousel mode zones quota autoCorrect) s = command (.auditSet src carousel mode zones quota autoCorrect) src s := rfl
@[simp] theorem exec_restartOps (src : Nat) (s : State) :
    exec (.restartOps src) s = command (.restartOps src) src s := rfl
@[simp] theorem exec_restartAll (src : Nat) (s : State) :
    exec (.restartAll src) s = command (.restartAll src) src s := rfl
@[simp] theorem exec_position (k : CarouselNo) (carrier : Nat) (s : State) :
    exec (.position k carrier) s = event (.position k carrier) (fun t => t.positionReport k carrier) s := rfl
@[simp] theorem exec_arrived (k : CarouselNo) (carrier : Nat) (s : State) :
    exec (.arrived k carrier) s = event (.arrived k carrier) (fun t => t.arrivedReport k carrier) s := rfl
@[simp] theorem exec_driveStatus (k : CarouselNo) (commander fault : Option Nat) (s : State) :
    exec (.driveStatus k commander fault) s = event (.driveStatus k commander fault) (fun t => t.driveReport k commander fault) s := rfl
@[simp] theorem exec_foreignMotionTelegram (k : CarouselNo) (source : Nat) (s : State) :
    exec (.foreignMotionTelegram k source) s = event (.foreignMotionTelegram k source) (fun t => t.yieldTo k source) s := rfl
@[simp] theorem exec_returnedMotionTelegram (k : CarouselNo) (s : State) :
    exec (.returnedMotionTelegram k) s = event (.returnedMotionTelegram k) (fun t => t.faultReaches k .driveAbsent) s := rfl
@[simp] theorem exec_curtain (k : CarouselNo) (broken : Bool) (s : State) :
    exec (.curtain k broken) s = event (.curtain k broken) (fun t => t.curtainReport k broken) s := rfl
@[simp] theorem exec_moveTimerExpiry (k : CarouselNo) (s : State) :
    exec (.moveTimerExpiry k) s = event (.moveTimerExpiry k) (fun t => t.moveExpiry k) s := rfl
@[simp] theorem exec_resumeDwellExpiry (k : CarouselNo) (s : State) :
    exec (.resumeDwellExpiry k) s = event (.resumeDwellExpiry k) (fun t => t.dwellExpiry k) s := rfl
@[simp] theorem exec_idleSweepExpiry (k : CarouselNo) (s : State) :
    exec (.idleSweepExpiry k) s = event (.idleSweepExpiry k) (fun t => t.sweepExpiry k) s := rfl
@[simp] theorem exec_ready (k : CarouselNo) (s : State) :
    exec (.ready k) s = event (.ready k) (fun t => t.makeCall k) s := rfl
@[simp] theorem exec_scan (k : CarouselNo) (tag article week year : Nat) (s : State) :
    exec (.scan k tag article week year) s = event (.scan k tag article week year) (fun t => t.scanTag k tag article week year) s := rfl
@[simp] theorem exec_placed (k : CarouselNo) (position : Nat) (s : State) :
    exec (.placed k position) s = event (.placed k position) (fun t => t.placedReport k position) s := rfl
@[simp] theorem exec_skip (k : CarouselNo) (s : State) :
    exec (.skip k) s = event (.skip k) (fun t => t.skipCarrier k) s := rfl
@[simp] theorem exec_presentationTimerExpiry (k : CarouselNo) (s : State) :
    exec (.presentationTimerExpiry k) s = event (.presentationTimerExpiry k) (fun t => t.presentationExpiry k) s := rfl
@[simp] theorem exec_returnedDisplay (k : CarouselNo) (s : State) :
    exec (.returnedDisplay k) s = event (.returnedDisplay k) (fun t => t.portAbsent k) s := rfl
@[simp] theorem exec_putawayWithdrawn (k : CarouselNo) (slot : Nat) (s : State) :
    exec (.putawayWithdrawn k slot) s = event (.putawayWithdrawn k slot) (fun t => t.withdrawnNotice k slot) s := rfl
@[simp] theorem exec_putawayFoundElsewhere (k : CarouselNo) (slot found : Nat) (s : State) :
    exec (.putawayFoundElsewhere k slot found) s = event (.putawayFoundElsewhere k slot found) (fun t => t.foundElsewhere k slot found) s := rfl
@[simp] theorem exec_planningStep (order line : Nat) (s : State) :
    exec (.planningStep order line) s = event (.planningStep order line) (fun t => t.planningStep order line) s := rfl
@[simp] theorem exec_replan (order line : Nat) (cause : ReplanCause) (s : State) :
    exec (.replan order line cause) s = event (.replan order line cause) (fun t => t.replan order line cause) s := rfl
@[simp] theorem exec_release (slot order line : Nat) (s : State) :
    exec (.release slot order line) s = event (.release slot order line) (fun t => t.tryRelease slot order line) s := rfl
@[simp] theorem exec_wakeUp (article : Nat) (s : State) :
    exec (.wakeUp article) s = event (.wakeUp article) (fun t => t.wakeUp article) s := rfl
@[simp] theorem exec_waitTimerExpiry (order line : Nat) (s : State) :
    exec (.waitTimerExpiry order line) s = event (.waitTimerExpiry order line) (fun t => t.waitExpiry order line) s := rfl
@[simp] theorem exec_arrive (lane tag : Nat) (s : State) :
    exec (.arrive lane tag) s = event (.arrive lane tag) (fun t => t.arrival lane tag) s := rfl
@[simp] theorem exec_transitTimerExpiry (lane entry : Nat) (s : State) :
    exec (.transitTimerExpiry lane entry) s = event (.transitTimerExpiry lane entry) (fun t => t.transitExpiry lane entry) s := rfl
@[simp] theorem exec_laneEmpty (lane : Nat) (s : State) :
    exec (.laneEmpty lane) s = event (.laneEmpty lane) (fun t => t.emptyLane lane) s := rfl
@[simp] theorem exec_returnedLaneOpen (lane : Nat) (s : State) :
    exec (.returnedLaneOpen lane) s = event (.returnedLaneOpen lane) (fun t => t.openFailed lane) s := rfl
@[simp] theorem exec_gate (k : CarouselNo) (carrier : Nat) (tags : List Nat) (s : State) :
    exec (.gate k carrier tags) s = event (.gate k carrier tags) (fun t => t.gateReport k carrier tags) s := rfl
@[simp] theorem exec_sessionTimerExpiry (s : State) :
    exec (.sessionTimerExpiry) s = event .sessionTimerExpiry (fun t => t.sessionExpiry) s := rfl
@[simp] theorem exec_pickRequest (k : CarouselNo) (tag order line : Nat) (s : State) :
    exec (.pickRequest k tag order line) s = event (.pickRequest k tag order line) (fun t => t.takePick k tag order line) s := rfl
@[simp] theorem exec_substitutionRequest (k : CarouselNo) (taken given : Nat) (s : State) :
    exec (.substitutionRequest k taken given) s = event (.substitutionRequest k taken given) (fun t => t.takeSubstitution k taken given) s := rfl

/-- What a served event comes to. -/
theorem served_eq {s : State} (h : s.serving = true) (f : State → State) :
    served f s = .next (State.finish s (f s)) := by simp [served, h]

theorem event_eq {s : State} (h : s.serving = true) (c : Instr) (f : State → State) :
    event c f s = .next (State.finish s (f (s.take c))) := by simp [event, served, h]

theorem lineEvent_eq {s : State} (h : s.resetHeld = false) (f : State → State) :
    lineEvent f s = .next (State.finish s (f s)) := by simp [lineEvent, h]

/-- What a command comes to where it is taken as it arrives. -/
theorem command_eq {s : State} (h : s.accepts) (c : Instr) (src : Nat) :
    command c src s =
      .next (State.finish s ((answerTo c s).placed src (commandNumber (commandPayload c)))) := by
  obtain ⟨h1, h2, h3⟩ := h
  simp [command, served, h1, State.issue, h2, State.mayTake, h3]

/-- What a served event that answers next came from. -/
theorem served_next {f : State → State} {s t : State} (e : served f s = .next t) :
    (s.serving = true ∧ t = State.finish s (f s)) ∨ (s.serving = false ∧ t = s) := by
  unfold served at e
  split at e
  · exact .inl ⟨‹_›, (Host.Outcome.next.inj e).symm⟩
  · rename_i h; exact .inr ⟨by simpa using h, (Host.Outcome.next.inj e).symm⟩

theorem lineEvent_next {f : State → State} {s t : State} (e : lineEvent f s = .next t) :
    (s.resetHeld = false ∧ t = State.finish s (f s)) ∨ (s.resetHeld = true ∧ t = s) := by
  unfold lineEvent at e
  split at e
  · exact .inr ⟨‹_›, (Host.Outcome.next.inj e).symm⟩
  · rename_i h; exact .inl ⟨by simpa using h, (Host.Outcome.next.inj e).symm⟩

/-! ## The end of an event -/

/-- The arbiter changes the ring's queues, its pointer and the transmitter alone. -/
theorem sendFirst_ring (s : State) (xs : List Source) :
    ∃ r, s.sendFirst xs = { s with ring := r } ∧ r.counters = s.ring.counters
      ∧ r.receiver = s.ring.receiver ∧ r.lineBits = s.ring.lineBits := by
  induction xs with
  | nil => exact ⟨s.ring, rfl, rfl, rfl, rfl⟩
  | cons x xs ih =>
    unfold State.sendFirst
    split
    · rename_i e
      cases x <;> simp only [State.sendFrom] at e <;> split at e <;> cases e <;> exact ⟨_, rfl, rfl, rfl, rfl⟩
    · exact ih

theorem arbitrate_ring (s : State) :
    ∃ r, s.arbitrate = { s with ring := r } ∧ r.counters = s.ring.counters
      ∧ r.receiver = s.ring.receiver ∧ r.lineBits = s.ring.lineBits := by
  unfold State.arbitrate; split
  · exact ⟨s.ring, rfl, rfl, rfl, rfl⟩
  · exact sendFirst_ring _ _

/-- With the transmitter busy the arbiter waits. -/
theorem arbitrate_busy {s : State} {t : Telegram} (h : s.ring.transmitter = some t) : s.arbitrate = s := by
  simp [State.arbitrate, h]

theorem finish_ring (s₀ s : State) :
    ∃ u r, Work s u ∧ State.finish s₀ s = { u with ring := r } ∧ r.counters = u.ring.counters
      ∧ r.receiver = u.ring.receiver ∧ r.lineBits = u.ring.lineBits := by
  obtain ⟨r, hr, h1, h2⟩ := arbitrate_ring (State.showDisplays s₀ (State.idleTests s₀ s))
  exact ⟨_, r, (idleTests_work s₀ s).trans (showDisplays_work s₀ _), hr, h1, h2⟩

/-- Every row at a block, but for the session's expiry, is that block's own work (R158 alone ends a session). -/
theorem atBlock_work {c : Instr} (h : c.atBlock = true) (hc : c ≠ .sessionTimerExpiry) :
    ∃ f, (∀ s, exec c s = event c f s) ∧ ∀ s, Work s (f s) := by
  cases c with
  | position k carrier => exact ⟨fun t => t.positionReport k carrier, fun _ => rfl, fun _ => Work.refl.positionReport _ _⟩
  | arrived k carrier => exact ⟨fun t => t.arrivedReport k carrier, fun _ => rfl, fun _ => Work.refl.arrivedReport _ _⟩
  | driveStatus k commander fault => exact ⟨fun t => t.driveReport k commander fault, fun _ => rfl, fun _ => Work.refl.driveReport _ _ _⟩
  | foreignMotionTelegram k source => exact ⟨fun t => t.yieldTo k source, fun _ => rfl, fun _ => Work.refl.yieldTo _ _⟩
  | returnedMotionTelegram k => exact ⟨fun t => t.faultReaches k .driveAbsent, fun _ => rfl, fun _ => Work.refl.faultReaches _ _⟩
  | curtain k broken => exact ⟨fun t => t.curtainReport k broken, fun _ => rfl, fun _ => Work.refl.curtainReport _ _⟩
  | moveTimerExpiry k => exact ⟨fun t => t.moveExpiry k, fun _ => rfl, fun _ => Work.refl.moveExpiry _⟩
  | resumeDwellExpiry k => exact ⟨fun t => t.dwellExpiry k, fun _ => rfl, fun _ => Work.refl.dwellExpiry _⟩
  | idleSweepExpiry k => exact ⟨fun t => t.sweepExpiry k, fun _ => rfl, fun _ => Work.refl.sweepExpiry _⟩
  | ready k => exact ⟨fun t => t.makeCall k, fun _ => rfl, fun _ => Work.refl.makeCall _⟩
  | scan k tag article week year => exact ⟨fun t => t.scanTag k tag article week year, fun _ => rfl, fun _ => Work.refl.scanTag _ _ _ _ _⟩
  | placed k position => exact ⟨fun t => t.placedReport k position, fun _ => rfl, fun _ => Work.refl.placedReport _ _⟩
  | skip k => exact ⟨fun t => t.skipCarrier k, fun _ => rfl, fun _ => Work.refl.skipCarrier _⟩
  | presentationTimerExpiry k => exact ⟨fun t => t.presentationExpiry k, fun _ => rfl, fun _ => Work.refl.presentationExpiry _⟩
  | returnedDisplay k => exact ⟨fun t => t.portAbsent k, fun _ => rfl, fun _ => Work.refl.portAbsent _⟩
  | putawayWithdrawn k slot => exact ⟨fun t => t.withdrawnNotice k slot, fun _ => rfl, fun _ => Work.refl.withdrawnNotice _ _⟩
  | putawayFoundElsewhere k slot found => exact ⟨fun t => t.foundElsewhere k slot found, fun _ => rfl, fun _ => Work.refl.foundElsewhere _ _ _⟩
  | planningStep order line => exact ⟨fun t => t.planningStep order line, fun _ => rfl, fun _ => Work.refl.planningStep _ _⟩
  | replan order line cause => exact ⟨fun t => t.replan order line cause, fun _ => rfl, fun _ => Work.refl.replan _ _ _⟩
  | release slot order line => exact ⟨fun t => t.tryRelease slot order line, fun _ => rfl, fun _ => Work.refl.tryRelease _ _ _⟩
  | wakeUp article => exact ⟨fun t => t.wakeUp article, fun _ => rfl, fun _ => Work.refl.wakeUp _⟩
  | waitTimerExpiry order line => exact ⟨fun t => t.waitExpiry order line, fun _ => rfl, fun _ => Work.refl.waitExpiry _ _⟩
  | arrive lane tag => exact ⟨fun t => t.arrival lane tag, fun _ => rfl, fun _ => Work.refl.arrival _ _⟩
  | transitTimerExpiry lane entry => exact ⟨fun t => t.transitExpiry lane entry, fun _ => rfl, fun _ => Work.refl.transitExpiry _ _⟩
  | laneEmpty lane => exact ⟨fun t => t.emptyLane lane, fun _ => rfl, fun _ => Work.refl.emptyLane _⟩
  | returnedLaneOpen lane => exact ⟨fun t => t.openFailed lane, fun _ => rfl, fun _ => Work.refl.openFailed _⟩
  | gate k carrier tags => exact ⟨fun t => t.gateReport k carrier tags, fun _ => rfl, fun _ => Work.refl.gateReport _ _ _⟩
  | pickRequest k tag order line => exact ⟨fun t => t.takePick k tag order line, fun _ => rfl, fun _ => Work.refl.takePick _ _ _ _⟩
  | substitutionRequest k taken given => exact ⟨fun t => t.takeSubstitution k taken given, fun _ => rfl, fun _ => Work.refl.takeSubstitution _ _ _⟩
  | sessionTimerExpiry => exact absurd rfl hc
  | _ => cases h

/-- The session's expiry is the block's own work but for the session (R158). -/
theorem sessionExpiry_work (s : State) :
    s.sessionExpiry = s ∨ Work (s.setSession none) s.sessionExpiry := by
  unfold State.sessionExpiry; split
  · exact .inl rfl
  · exact .inr (Work.refl.notify _)

/-- Every command row but BAD_COMMAND_NUMBER is its command's arrival. -/
theorem exec_command {c : Instr} {src : Nat} (h : c.commandSource = some src)
    (hb : ∀ p, c ≠ .badCommandNumber src p) (s : State) : exec c s = command c src s := by
  cases c with
  | badCommandNumber n p => cases h; exact absurd rfl (hb p)
  | _ => first | (cases h; rfl) | cases h

end Sys2Proof.Machine
end

