-- ==== Sys2Proof/Tests/Slice0.lean ====
section
/-! SUPPORT. The model's own tests. Expected values are the spec's: its worked examples and tables, or figures worked
by hand from its rules. First the ill-formed terms that `Instr.wellFormed` refuses; then the rows, each about one
step on a small state; then figures of the worked examples; last, for every obligation with hypotheses, states and
operands that meet them, clause by clause. -/

namespace Sys2Proof.Tests

set_option Elab.async false

open Sys2Proof Sys2Proof.Machine

/-! ## Small states -/

/-- The part after reset: node 1, SVC high, the transmitter sending STARTED. -/
def part : State := State.reset

/-- A carousel of 16 carriers and two positions, STANDING, with nodes 10, 11 and 12. -/
def car : Carousel := { state := .standing, carriers := 16, positions := 2, bidirectional := true,
                        drive := some 10, port := some 11, gate := some 12 }

/-- A profile and an article as the worked examples of 02 and 08 have them. -/
def bank : Bank := { articles := [(401170, ⟨3, 0xFFFF#16⟩)], profiles := [(3, ⟨26, 78, true, false, .nearest, false⟩)],
                     trafficValid := true, articleValid := true, profileValid := true }

/-- Carousel 0 and the conveyor configured, the calendar at week 14 of year 25, one article known, port 0 in
PICK mode. -/
def plant : State :=
  ({ part.setCarousel 0 car with
    lanes := { conveyor := some 40 }
    stock := { calendar := ⟨14, 25, 1338, true⟩ }
    policy := { bankA := bank } } : State).onPort 0 (fun p => { p with mode := .pick })

/-- Carousel 0 and port 0 of the plant, changed. -/
def carousel0 (f : Carousel → Carousel) (s : State := plant) : State := s.onCarousel 0 f
def port0 (f : Port → Port) (s : State := plant) : State := s.onPort 0 f
def slot0 (i : Nat) (x : Content) (s : State := plant) : State := s.setSlot i ⟨x, false⟩
def lane9 (l : Lane) (s : State := plant) : State := s.setLane 9 l
def withOrders (os : List Order) (s : State := plant) : State := { s with planner := ⟨os, os.length⟩ }
def withSession (x : Session) (s : State := plant) : State := { s with policy := { s.policy with session := some x } }

def tyre (tag ordinal : Nat) : Tyre := ⟨tag, 401170, ordinal⟩

/-- Line 1 of order 70, as 02's worked example has it, with some reserved members. -/
def line70 (members : List Member) : Line :=
  { number := 1, article := 401170, quantity := 4, rule := .matching, captured := some ⟨26, 78, false⟩, members := members }

/-- Order 70 of 02's worked example, its lane 9. -/
def order70 (state : OrderState) (lines : List Line) : Order :=
  { id := 70, source := 5, priority := 1, chain := 0, continues := false, shortage := .hold 240, state := state,
    lane := some 9, lines := lines, acceptance := 1, planned := if state = .planning then 0 else 1 }

/-- The task of order 70 for a position. -/
def task70 (position : Nat) : PickTask := ⟨70, 1, position, 9, 26⟩

/-- The state after one command, and what it answered, told and queued. -/
def after (c : Instr) (s : State) : State :=
  match exec c s with | .next t => t | .fault _ | .refused _ => s
def answer (c : Instr) (s : State) : Option (Status × List Byte) :=
  ((after c s).ring.replies.getLast?).map (fun r => (r.status, r.data))
def told (c : Instr) (s : State) : List Notice := (after c s).ring.notices.map (fun q => q.notice)
def queued (c : Instr) (s : State) : List (FieldTarget × FieldCommand) :=
  (after c s).ring.field.map (fun e => (e.target, e.command))

/-- A good telegram. -/
def receive (t : Telegram) : Instr := .telegramReceived t t.checkWord

/-! ## Well-formed commands -/

/-- Ill-formed terms, one for each check: each is refused. -/
theorem test_wellFormed_refuses_line_and_settings :
    ([.powerOn 64 true, receive ⟨0, 0, 0, 0, List.replicate 57 0⟩, .badCommandNumber 64 [], .badCommandNumber 0 [1],
      .badCommandNumber 0 (List.replicate 57 0), .identify 64, .readAuditLog 64, .bankCopy 64, .bankSwitch 64,
      .restartOps 64, .restartAll 64, .query 64 0 0 0, .query 0 256 0 0, .query 0 0 4294967296 0, .query 0 0 0 65536,
      .setCalendar 64 1 0, .setCalendar 0 256 0, .setCalendar 0 1 256, .setCalendarBroadcast 64 1 0,
      .setCalendarBroadcast 0 256 0, .setCalendarBroadcast 0 1 256, .setNotices 64 true true true true true true] :
      List Instr).all (fun c => !c.wellFormed) = true := by decide +kernel

theorem test_wellFormed_refuses_carousel_commands :
    ([.configureCarousel 64 0 16 1 true 1 2 3, .configureCarousel 0 256 16 1 true 1 2 3,
      .configureCarousel 0 0 256 1 true 1 2 3, .configureCarousel 0 0 16 256 true 1 2 3,
      .configureCarousel 0 0 16 1 true 256 2 3, .configureCarousel 0 0 16 1 true 1 256 3,
      .configureCarousel 0 0 16 1 true 1 2 256, .setZoneMap 64 0 0 [0], .setZoneMap 0 256 0 [0], .setZoneMap 0 0 256 [0],
      .setZoneMap 0 0 0 [256], .setZoneMap 0 0 0 (List.replicate 53 0), .setTiming 64 0 true 0 0 0 0,
      .setTiming 0 256 true 0 0 0 0, .setTiming 0 0 true 65536 0 0 0, .setTiming 0 0 true 0 65536 0 0,
      .setTiming 0 0 true 0 0 65536 0, .setTiming 0 0 true 0 0 0 256, .carouselOnline 64 0, .carouselOnline 0 256,
      .carouselOffline 64 0, .carouselOffline 0 256, .clearFault 64 0, .clearFault 0 256, .reclaim 64 0, .reclaim 0 256,
      .replanCarousel 64 0, .replanCarousel 0 256, .jogRequest 64 0 1 0, .jogRequest 0 256 1 0, .jogRequest 0 0 256 0,
      .jogRequest 0 0 1 256, .setPort 64 0 true true 0 0 10, .setPort 0 256 true true 0 0 10,
      .setPort 0 0 true true 256 0 10, .setPort 0 0 true true 0 256 10, .setPort 0 0 true true 0 0 65536,
      .portMode 64 0 0, .portMode 0 256 0, .portMode 0 0 256] : List Instr).all (fun c => !c.wellFormed) = true := by
  decide +kernel

theorem test_wellFormed_refuses_slot_bank_and_order_commands :
    ([.loadSlots 64 [], .loadSlots 0 (List.replicate 5 ⟨0, 0, 0, 0, 0, 0⟩), .loadSlots 0 [⟨65536, 0, 0, 0, 0, 0⟩],
      .loadSlots 0 [⟨0, 256, 0, 0, 0, 0⟩], .loadSlots 0 [⟨0, 0, 4294967296, 0, 0, 0⟩], .loadSlots 0 [⟨0, 0, 0, 16777216, 0, 0⟩],
      .loadSlots 0 [⟨0, 0, 0, 0, 256, 0⟩], .loadSlots 0 [⟨0, 0, 0, 0, 0, 256⟩], .holdReleaseAccept 64 0,
      .holdReleaseAccept 0 65536, .holdReleaseClear 64 0, .holdReleaseClear 0 65536, .holdReleaseSet 64 0 0 0 0 0,
      .holdReleaseSet 0 65536 0 0 0 0, .holdReleaseSet 0 0 4294967296 0 0 0, .holdReleaseSet 0 0 0 16777216 0 0,
      .holdReleaseSet 0 0 0 0 256 0, .holdReleaseSet 0 0 0 0 0 256, .loadOpen 64 0 0, .loadOpen 0 256 0, .loadOpen 0 0 256,
      .loadRecord 64 1 [], .loadRecord 0 256 [], .loadRecord 0 1 (List.replicate 55 0), .loadClose 64 0,
      .order 64 1 0 0 true 0 0 [], .order 0 65536 0 0 true 0 0 [], .order 0 1 256 0 true 0 0 [],
      .order 0 1 0 256 true 0 0 [], .order 0 1 0 0 true 256 0 [], .order 0 1 0 0 true 0 65536 [],
      .order 0 1 0 0 true 0 0 (List.replicate 10 ⟨1, 1, 0⟩), .order 0 1 0 0 true 0 0 [⟨16777216, 1, 0⟩],
      .order 0 1 0 0 true 0 0 [⟨1, 256, 0⟩], .order 0 1 0 0 true 0 0 [⟨1, 1, 256⟩], .orderCancel 64 1,
      .orderCancel 0 65536, .shortClose 64 1 true, .shortClose 0 65536 true, .setLanes 64 1 10, .setLanes 0 256 10,
      .setLanes 0 1 65536, .laneRelease 64 0 true, .laneRelease 0 256 true, .laneClearForeign 64 0,
      .laneClearForeign 0 256, .auditSet 64 0 0 0 1 true, .auditSet 0 256 0 0 1 true, .auditSet 0 0 256 0 1 true,
      .auditSet 0 0 0 0 256 true] : List Instr).all (fun c => !c.wellFormed) = true := by decide +kernel

theorem test_wellFormed_refuses_block_rows :
    ([.position 0 256, .arrived 0 256, .driveStatus 0 (some 64) none, .driveStatus 0 none (some 0),
      .driveStatus 0 none (some 256), .foreignMotionTelegram 0 64, .scan 0 4294967296 1 1 0, .scan 0 1 16777216 1 0,
      .scan 0 1 1 256 0, .scan 0 1 1 1 256, .placed 0 256, .putawayWithdrawn 0 6144, .putawayFoundElsewhere 0 6144 0,
      .putawayFoundElsewhere 0 0 6144, .planningStep 0 1, .planningStep 65536 1, .planningStep 1 0, .planningStep 1 9,
      .waitTimerExpiry 0 1, .waitTimerExpiry 1 9, .replan 0 1 .mark, .replan 1 0 .wakeUp, .release 6144 1 1,
      .release 0 0 1, .release 0 1 9, .wakeUp 0, .wakeUp 1048576, .arrive 256 0, .arrive 0 4294967296,
      .transitTimerExpiry 24 0, .transitTimerExpiry 0 16, .laneEmpty 256, .returnedLaneOpen 256,
      .gate 0 256 (List.replicate 8 0), .gate 0 0 (List.replicate 7 0), .gate 0 0 (List.replicate 8 4294967296),
      .pickRequest 0 0 1 1, .pickRequest 0 4294967296 1 1, .pickRequest 0 1 0 1, .pickRequest 0 1 1 9,
      .substitutionRequest 0 6144 0, .substitutionRequest 0 0 6144] : List Instr).all (fun c => !c.wellFormed) = true := by
  decide +kernel

/-- Terms at the upper ends of their fields: each is well formed. -/
theorem test_wellFormed_takes_the_ends :
    ([.resetAsserted, .powerOn 63 false, .frameError .tooLong, receive ⟨255, 255, 255, 255, List.replicate 56 255⟩,
      .transmissionComplete, .badCommandNumber 63 [33], .identify 63, .query 63 255 4294967295 65535,
      .setCalendar 63 255 255, .setCalendarBroadcast 63 255 255, .configureCarousel 63 255 255 255 true 255 255 255,
      .setZoneMap 63 255 255 (List.replicate 52 255), .setTiming 63 255 true 65535 65535 65535 255,
      .jogRequest 63 255 255 255, .setPort 63 255 true true 255 255 65535, .portMode 63 255 255,
      .loadSlots 63 (List.replicate 4 ⟨65535, 255, 4294967295, 16777215, 255, 255⟩), .holdReleaseAccept 63 65535,
      .holdReleaseSet 63 65535 4294967295 16777215 255 255, .loadOpen 63 255 255,
      .loadRecord 63 255 (List.replicate 54 255), .loadClose 63 0xFFFFFFFF#32,
      .order 63 65535 255 255 true 255 65535 (List.replicate 9 ⟨16777215, 255, 255⟩), .setLanes 63 255 65535,
      .auditSet 63 255 255 0xFFFF#16 255 true, .driveStatus 7 (some 63) (some 255), .driveStatus 7 none none,
      .scan 7 4294967295 16777215 255 255, .putawayFoundElsewhere 7 6143 6143, .replan 65535 8 .mark,
      .release 6143 65535 8, .wakeUp 1048575, .arrive 255 4294967295, .transitTimerExpiry 23 15,
      .gate 7 255 (List.replicate 8 4294967295), .sessionTimerExpiry, .pickRequest 7 4294967295 65535 8,
      .substitutionRequest 7 6143 6143] : List Instr).all (fun c => c.wellFormed) = true := by decide +kernel

/-- The opcode table gives no row bits: no word spells a command, and none is placed. -/
theorem test_no_word_spells_a_command (nbits w : Nat) (s : State) :
    decodeTableWord nbits w = none ∧ s.withFetchWord nbits w = s := ⟨rfl, rfl⟩

/-! ## Pins and the line -/

/-- R173, R146: the transmission is abandoned and RESET is held. -/
theorem test_reset_abandons_the_transmission :
    (after .resetAsserted part).ring.transmitter = none ∧ (after .resetAsserted part).resetHeld = true := by decide +kernel

/-- R173, R145, 10: node 17, SVC low; STARTED is notice 1, SYSTEM 6, kind 19, sent to node 0 with hop 32. -/
theorem test_powerOn_sends_started :
    (after (.powerOn 17 false) plant).ring.transmitter = some ⟨0, 17, 3, 32, [0, 1, 6, 19, 17, 1, 0]⟩
      ∧ (after (.powerOn 17 false) plant).stock = {} := by decide +kernel

/-- R148, R173: at address 63 the part is unaddressed and produces no notice. -/
theorem test_powerOn_unaddressed : (after (.powerOn 63 true) plant).ring.transmitter = none
    ∧ (after (.powerOn 63 true) plant).command.noticeSequence = 0 := by decide +kernel

/-- R135, R147: a frame error is counted, and its count holds at 65,535. -/
theorem test_frameError_counts :
    (after (.frameError .cutShort) part).ring.counters.frameErrors = 1
      ∧ (after (.frameError .tooLong) (part.count (fun c => { c with frameErrors := 65535 }))).ring.counters.frameErrors
        = 65535 := by decide +kernel

/-- R176: the byte 1A (bits 0, 1, 0, 1, 1, 0, 0, 0) and the marker; a telegram of one byte takes 9 symbols, 90 µs. Its
levels, received behind an idle level, raise it once; a marker within it cuts it short. -/
theorem test_line_levels :
    let t : Telegram := ⟨0, 30, 16, 20, [0x1A]⟩
    (Symbol.data 0x1A).levels = [false, false, true, false, true, true, false, false, false, true]
      ∧ Symbol.marker.levels = List.replicate 10 false ∧ t.duration = 90 ∧ t.levels.length = 90
      ∧ (part.feedLevels (true :: t.levels)).pending = [.telegramReceived t t.checkWord]
      ∧ (part.feedLevels (t.levels.take 80 ++ t.levels)).pending = [.frameError .cutShort, .telegramReceived t t.checkWord]
      ∧ part.ringOut 0 = false ∧ part.ringOut 10 = false ∧ part.ringOut 19 = true ∧ part.ringOut 10000 = true := by
  decide +kernel

/-- The traffic of 07's worked example: node 17, carousel 2 with nodes 30, 31 and 32, conveyor 40. -/
def traffic : State :=
  { part.setCarousel 2 { car with drive := some 30, port := some 31, gate := some 32 } with
    address := 17
    lanes := { conveyor := some 40 }
    policy := { bankA := { bank with traffic :=
      [(8, .take), (9, .take), (10, .take), (11, .take), (12, .take), (16, .observe), (17, .take), (18, .observe),
       (20, .observe), (21, .drop), (22, .observe), (24, .observe), (32, .observe), (33, .take)] } } }

def position1 : Telegram := ⟨0, 30, 16, 20, [5]⟩
def scan2 : Telegram := ⟨0, 31, 8, 20, [0, 0, 0, 9, 6, 31, 18, 20, 24]⟩
def gate3 : Telegram := ⟨0, 51, 24, 25, 4 :: List.replicate 32 0⟩
def stop4 : Telegram := ⟨30, 18, 21, 29, []⟩
def move5 : Telegram := ⟨50, 0, 20, 12, [1, 0, 1]⟩
def command6 : Telegram := ⟨17, 0, 1, 15, [1]⟩
def display7 : Telegram := ⟨31, 17, 28, 22, List.replicate 9 0⟩
def curtain8 : Telegram := ⟨0, 31, 12, 0, [1]⟩

/-- 07, worked example, telegrams 1 to 5. Tag 9 and article 401170 are the bytes 09 and 06 1F 12. -/
theorem test_telegrams_are_classified :
    (after (receive position1) traffic).ring.forward = [position1]
      ∧ (after (receive position1) traffic).handed = [.position 2 5]
      ∧ (after (receive scan2) traffic).ring.forward = []
      ∧ (after (receive scan2) traffic).handed = [.scan 2 9 401170 20 24]
      ∧ (after (receive gate3) traffic).ring.forward = [gate3] ∧ (after (receive gate3) traffic).handed = []
      ∧ (after (receive stop4) traffic).ring.forward = [] ∧ (after (receive stop4) traffic).handed = []
      ∧ (after (receive stop4) traffic).ring.counters.guarded = 1
      ∧ (after (receive move5) traffic).ring.forward = [move5] := by decide +kernel

/-- 07, worked example, telegrams 6 to 8. -/
theorem test_own_telegrams_and_returns :
    (after (receive command6) traffic).ring.replies.map (fun r => (r.dest, r.number, r.status)) = [(0, 1, .done)]
      ∧ (after (receive display7) traffic).ring.counters.returns = 1
      ∧ (after (receive display7) traffic).handed = [.returnedDisplay 2]
      ∧ (after (receive curtain8) traffic).ring.counters.hopExpiries = 1
      ∧ (after (receive curtain8) traffic).handed = [] := by decide +kernel

/-- 07, worked example, choices 3 to 5: POSITION leaves with hop 19, MOVE to node 30 with hop 32, and with an empty
reply queue the pointer passes on to the notice. -/
def sending : State :=
  { traffic with ring := { traffic.ring with
      forward := [position1], pointer := .forward
      field := [⟨.drive 2, .move 7 ⟨.forward, 3⟩, 30⟩] } }

theorem test_arbiter_takes_turns :
    (after .transmissionComplete sending).ring.transmitter = some { position1 with hop := 19 }
      ∧ (after .transmissionComplete (after .transmissionComplete sending)).ring.transmitter
        = some ⟨30, 17, 20, 32, [7, 0, 3]⟩ := by decide +kernel

/-- R145: with every queue empty the transmitter falls idle. -/
theorem test_transmitter_falls_idle : (after .transmissionComplete part).ring.transmitter = none := by decide +kernel

/-! ## Commands (09) -/

/-- R164: 33 is no command's number, and QUERY needs seven bytes of arguments. -/
theorem test_badCommandNumber :
    answer (.badCommandNumber 5 [33]) part = some (.badArgument, [])
      ∧ (after (.badCommandNumber 5 [2, 0]) part).ring.replies = [⟨5, 2, .badArgument, []⟩] := by decide +kernel

/-- R166: 2610 is 0A 32 in bytes; no carousel is in service, no order stands, all classes are enabled. -/
theorem test_identify : answer (.identify 5) part
    = some (.done, [10, 50, 1, 1, 0, 0, 0, 0, 0, 0, 0, 0, 1, 1, 1, 1, 1, 1, 1, 0, 0, 0, 0]) := by decide +kernel

/-- R167, R9: week 14 of year 25 has ordinal 1338, 05 3A in bytes. R168: there is no kind 20. -/
theorem test_query : answer (.query 5 4 0 0) plant = some (.done, [14, 25, 5, 58, 1])
    ∧ answer (.query 5 20 0 0) plant = some (.badArgument, [])
    ∧ answer (.query 5 1 9 0) plant = some (.noSuchRecord, []) := by decide +kernel

/-- 06, worked example: entries 141 to 143 leave the log. The kind is in the top three bits over the slot. -/
def logged : State := { part with audit := { logCount := 143, log :=
  [⟨141, 3320, .corrected, some 20, some 21, none⟩, ⟨142, 3321, .corrected, some 21, some 20, none⟩,
   ⟨143, 3338, .foreign, none, some 40, some 3307⟩] } }

theorem test_readAuditLog :
    (after (.readAuditLog 5) logged).audit.log = []
      ∧ answer (.readAuditLog 5) logged = some (.done,
        [3, 0, 0, 141, 140, 248, 0, 0, 0, 20, 0, 0, 0, 21, 255, 255, 140, 249, 0, 0, 0, 21, 0, 0, 0, 20, 255, 255,
         109, 10, 0, 0, 0, 0, 0, 0, 0, 40, 12, 235]) := by decide +kernel

/-- R9: week 53 of year 99 has the last ordinal; week 54 is refused and the calendar stays. -/
theorem test_setCalendar :
    (after (.setCalendar 5 53 99) plant).stock.calendar = ⟨53, 99, 5299, true⟩
      ∧ answer (.setCalendar 5 54 0) plant = some (.badArgument, [])
      ∧ (after (.setCalendar 5 54 0) plant).stock.calendar = ⟨14, 25, 1338, true⟩ := by decide +kernel

/-- R165: as a broadcast it sets the calendar without a reply. -/
theorem test_setCalendarBroadcast :
    (after (.setCalendarBroadcast 5 14 25) part).stock.calendar = ⟨14, 25, 1338, true⟩
      ∧ (after (.setCalendarBroadcast 5 14 25) part).ring.replies = [] := by decide +kernel

/-- R170: a disabled class's notice is discarded uncounted. -/
theorem test_setNotices :
    (after (.setNotices 5 true false true true true true) part).command.enables = { lane := false }
      ∧ (({ part with command := { enables := { lane := false } } } : State).notify (.laneOpenFailed 9 .ready)).ring.notices
        = [] := by decide +kernel

/-! ## Carousel and port commands (03, 04) -/

/-- R52: 96 carriers of 8 positions are taken; the part's own node 1 and a node used twice are refused. -/
theorem test_configureCarousel :
    ((after (.configureCarousel 5 7 96 8 true 20 21 22) plant).carousel 7).drive = some 20
      ∧ answer (.configureCarousel 5 7 97 8 true 20 21 22) plant = some (.badArgument, [])
      ∧ answer (.configureCarousel 5 7 16 8 true 1 21 22) plant = some (.badArgument, [])
      ∧ answer (.configureCarousel 5 7 16 8 true 10 21 22) plant = some (.badArgument, [])
      ∧ answer (.configureCarousel 5 7 16 8 true 20 21 20) plant = some (.badArgument, []) := by decide +kernel

/-- R52: a carousel in service is refused. -/
theorem test_configureCarousel_in_service :
    answer (.configureCarousel 5 0 16 2 true 10 11 12) plant = some (.refusedState, []) := by decide +kernel

/-- R53: carriers 14 and 15 of 16 take zones; one carrier more is out of range. -/
theorem test_setZoneMap :
    ((after (.setZoneMap 5 0 14 [3, 15]) plant).carousel 0).zones = [(14, 3), (15, 15)]
      ∧ answer (.setZoneMap 5 0 14 [3, 3, 3]) plant = some (.badArgument, [])
      ∧ answer (.setZoneMap 5 0 0 [16]) plant = some (.badArgument, []) := by decide +kernel

/-- R54: 49 is brought to 50 and answered CLAMPED; the ends of the ranges are taken as they are. -/
theorem test_setTiming :
    answer (.setTiming 5 0 true 49 2000 60 6) plant = some (.clamped, [])
      ∧ ((after (.setTiming 5 0 true 49 2000 60 6) plant).carousel 0).overrideValue = 50
      ∧ answer (.setTiming 5 0 true 10000 10000 3600 15) plant = some (.done, []) := by decide +kernel

/-- R55: CAROUSEL-ONLINE needs OFFLINE and the three nodes. -/
theorem test_carouselOnline :
    ((after (.carouselOnline 5 0) (carousel0 fun c => { c with state := .offline })).carousel 0).state = .standing
      ∧ answer (.carouselOnline 5 0) plant = some (.refusedState, [])
      ∧ answer (.carouselOnline 5 1) plant = some (.refusedState, []) := by decide +kernel

/-- R55: CAROUSEL-OFFLINE takes a STANDING carousel, not one that moves. -/
theorem test_carouselOffline :
    ((after (.carouselOffline 5 0) plant).carousel 0).state = .offline
      ∧ answer (.carouselOffline 5 0) (carousel0 fun c => { c with state := .moving }) = some (.refusedState, []) := by
  decide +kernel

/-- R71: a DRIVE-ABSENT fault needs a status since the fault. -/
theorem test_clearFault :
    ((after (.clearFault 5 0) (carousel0 fun c => { c with state := .fault, cause := some .moveTimeout })).carousel 0).state
        = .standing
      ∧ answer (.clearFault 5 0) (carousel0 fun c => { c with state := .fault, cause := some .driveAbsent })
        = some (.refusedState, []) := by decide +kernel

/-- R73: the drive's commander must be the part or none. -/
theorem test_reclaim :
    answer (.reclaim 5 0) (carousel0 fun c => { c with state := .yielded, lastCommander := some 18 })
        = some (.foreignMaster, [])
      ∧ ((after (.reclaim 5 0) (carousel0 fun c => { c with state := .yielded, lastCommander := some 1 })).carousel 0).state
        = .standing
      ∧ ((after (.reclaim 5 0) (carousel0 fun c => { c with state := .yielded, lastFault := some 7 })).carousel 0).cause
        = some .driveFault := by decide +kernel

/-- Order 70 with one tyre reserved in slot 9 (carrier 1, position 1), its stop and its task. -/
def reserved9 : State :=
  slot0 9 (.reserved (tyre 4 1293) 70 1)
    (carousel0 (fun c => { c with stops := [⟨1, [task70 1], 7, 0⟩] })
      (withOrders [order70 .active [line70 [⟨9, 1293⟩]]]))

/-- R27, R31, R180: the record of order 70 and its line, with no picked extremes (65,535, then 0) and no replan mark. -/
theorem test_query_order : answer (.query 5 11 70 1) reserved9 = some (.done,
    [0, 70, 5, 1, 0, 0, 1, 0, 240, 3, 9, 0, 1, 0, 255] ++ [1, 6, 31, 18, 4, 1, 26, 0, 78, 0, 0]
      ++ [0, 9, 255, 255, 255, 255, 255, 255, 255, 255, 255, 255, 255, 255, 255, 255, 1, 0]
      ++ [255, 255, 0, 0, 0, 0, 0, 255, 0]) := by decide +kernel

/-- R76: the task is released, its stop leaves, the line is marked and its replan handed after the wake-up. -/
theorem test_replanCarousel :
    answer (.replanCarousel 5 0) reserved9 = some (.done, [0, 1])
      ∧ ((after (.replanCarousel 5 0) reserved9).slot 9).content = .stored (tyre 4 1293)
      ∧ ((after (.replanCarousel 5 0) reserved9).carousel 0).stops = []
      ∧ (after (.replanCarousel 5 0) reserved9).handed = [.wakeUp 401170, .replan 70 1 .mark] := by decide +kernel

/-- R75, R64: a jog of 15 of 16 carriers backward from carrier 0 ends at carrier 1; its timer is (15 × 1500 × 3) div 2 +
2000 = 35,750. -/
theorem test_jogRequest :
    queued (.jogRequest 5 0 15 1) plant = [(.drive 0, .jog ⟨.backward, 15⟩)]
      ∧ ((after (.jogRequest 5 0 15 1) plant).carousel 0).move = some ⟨.jog, 1, some ⟨.backward, 15⟩⟩
      ∧ ((after (.jogRequest 5 0 15 1) plant).carousel 0).moveTimer = some 35750
      ∧ answer (.jogRequest 5 0 16 1) plant = some (.badArgument, [])
      ∧ answer (.jogRequest 5 0 15 1) { plant with serviceHigh := false } = some (.notPermitted, []) := by decide +kernel

/-- R79: a timeout of 9 s is brought to 10 s; auto-call turned on calls, and the empty list is an underrun. -/
theorem test_setPort :
    answer (.setPort 5 0 true false 0 0 9) plant = some (.clamped, [])
      ∧ ((after (.setPort 5 0 true false 0 0 9) plant).port 0).timeout = 10
      ∧ told (.setPort 5 0 true false 0 0 9) plant = [.portUnderrun 0 1] := by decide +kernel

/-- R80: applied at once at an IDLE port, deferred at another, refused without a port node. -/
theorem test_portMode :
    answer (.portMode 5 0 2) plant = some (.done, [0]) ∧ ((after (.portMode 5 0 2) plant).port 0).mode = .store
      ∧ answer (.portMode 5 0 2) (port0 fun p => { p with work := .calling }) = some (.done, [1])
      ∧ ((after (.portMode 5 0 2) (port0 fun p => { p with work := .calling })).port 0).pendingMode = some .store
      ∧ answer (.portMode 5 7 2) plant = some (.refusedState, []) := by decide +kernel

/-! ## Slot and bank commands (01, 08) -/

/-- R24: the records are taken in order, each with its outcome: DONE 0, REFUSED-STATE 2 for the tag now in slot 0,
BAD-ARGUMENT 3 for an unmapped slot. -/
theorem test_loadSlots :
    answer (.loadSlots 5 [⟨0, 1, 4, 401170, 14, 25⟩, ⟨1, 1, 4, 401170, 14, 25⟩, ⟨2, 3, 0, 0, 0, 0⟩]) plant
        = some (.done, [0, 2, 3])
      ∧ (after (.loadSlots 5 [⟨0, 1, 4, 401170, 14, 25⟩]) plant).slot 0 = ⟨.stored (tyre 4 1338), true⟩
      ∧ (after (.loadSlots 5 [⟨0, 1, 4, 401170, 14, 25⟩]) plant).handed = [.wakeUp 401170]
      ∧ answer (.loadSlots 5 []) plant = some (.badArgument, []) := by decide +kernel

/-- R25: ACCEPT stores a HELD record with tag and article; a VACATED slot is refused. -/
theorem test_holdReleaseAccept :
    (after (.holdReleaseAccept 5 9) (slot0 9 (.held (.missing (tyre 4 1293))))).slot 9 = ⟨.stored (tyre 4 1293), true⟩
      ∧ answer (.holdReleaseAccept 5 9) (slot0 9 (.held .vacated)) = some (.refusedState, [])
      ∧ answer (.holdReleaseAccept 5 6143) plant = some (.badArgument, []) := by decide +kernel

/-- R25: CLEAR empties a HELD or BLOCKED slot, and refuses an EMPTY one. -/
theorem test_holdReleaseClear :
    (after (.holdReleaseClear 5 9) (slot0 9 .blocked)).slot 9 = ⟨.empty, true⟩
      ∧ answer (.holdReleaseClear 5 9) plant = some (.refusedState, []) := by decide +kernel

/-- R25: SET writes the record anew; a tag in another slot is refused with that slot's index. -/
theorem test_holdReleaseSet :
    (after (.holdReleaseSet 5 9 4 401170 14 25) (slot0 9 .blocked)).slot 9 = ⟨.stored (tyre 4 1338), true⟩
      ∧ answer (.holdReleaseSet 5 9 4 401170 14 25) (slot0 9 .blocked (slot0 8 (.stored (tyre 4 1293))))
        = some (.refusedState, [0, 8])
      ∧ answer (.holdReleaseSet 5 9 4 401170 54 25) (slot0 9 .blocked) = some (.badArgument, []) := by decide +kernel

/-- R152: bank B takes bank A's tables, VALID. -/
theorem test_bankCopy : (after (.bankCopy 5) plant).policy.bankB = bank := by decide +kernel

/-- R153: ARTICLE MERGE keeps the records, and the table is INVALID; the session starts with all ones and 10 s. -/
theorem test_loadOpen :
    (after (.loadOpen 5 1 1) (after (.bankCopy 5) plant)).policy.bankB = { bank with articleValid := false }
      ∧ (after (.loadOpen 5 1 0) (after (.bankCopy 5) plant)).policy.bankB
        = { bank with articleValid := false, articles := [] }
      ∧ (after (.loadOpen 5 1 1) plant).policy.session
        = some ⟨.article, .merge, 5, 0xFFFFFFFF#32, false, 0, 10000⟩ := by decide +kernel

/-- A traffic session of node 0 as it opens. -/
def loading : State := withSession ⟨.traffic, .replace, 0, 0xFFFFFFFF#32, false, 0, 10000⟩ plant

/-- 10, worked example: the record 08 01 gives a count of 1 and the check 8E3E3A98. -/
theorem test_loadRecord :
    answer (.loadRecord 0 1 [8, 1]) loading = some (.done, [1, 0, 1, 0x8E, 0x3E, 0x3A, 0x98])
      ∧ (after (.loadRecord 0 1 [8, 1]) loading).policy.bankB.traffic = [(8, .take)]
      ∧ answer (.loadRecord 5 1 [8, 1]) loading = some (.notPermitted, [])
      ∧ answer (.loadRecord 0 1 [64, 1]) loading = some (.badArgument, []) := by decide +kernel

/-- 08, worked example: a profile record with window 120 is written as 104 and answered CLAMPED. -/
theorem test_loadRecord_clamps :
    let s := withSession ⟨.profile, .merge, 0, 0xFFFFFFFF#32, false, 0, 10000⟩ plant
    (answer (.loadRecord 0 1 [3, 120, 0, 78, 1, 0, 0, 0]) s).map (fun a => a.1) = some .clamped
      ∧ (after (.loadRecord 0 1 [3, 120, 0, 78, 1, 0, 0, 0]) s).policy.bankB.profiles
        = [(3, ⟨104, 78, true, false, .nearest, false⟩)] := by decide +kernel

/-- 10, worked example: the close with the bytes 8E 3E 3A 98 makes the table VALID; another check does not. -/
theorem test_loadClose :
    let s := withSession ⟨.traffic, .replace, 0, 0x8E3E3A98#32, false, 1, 10000⟩ plant
    answer (.loadClose 0 0x8E3E3A98#32) s = some (.done, [0x8E, 0x3E, 0x3A, 0x98, 0, 1])
      ∧ (after (.loadClose 0 0x8E3E3A98#32) s).policy.bankB.trafficValid = true
      ∧ answer (.loadClose 0 0#32) s = some (.badCheck, [0x8E, 0x3E, 0x3A, 0x98, 0, 1])
      ∧ (after (.loadClose 0 0#32) s).policy.session = none := by decide +kernel

/-- 08, worked example: with bank B's profile table INVALID the switch is refused naming it; else B is active. -/
theorem test_bankSwitch :
    let copied := after (.bankCopy 5) plant
    answer (.bankSwitch 5) { copied with policy := { copied.policy with bankB := { bank with profileValid := false } } }
        = some (.refusedState, [2])
      ∧ (after (.bankSwitch 5) copied).policy.active = .b ∧ told (.bankSwitch 5) copied = [.bankSwitched .b 1] := by
  decide +kernel

/-! ## Orders and lanes by command (02, 05) -/

/-- 05, worked example: lane 9 is the lowest FREE one for order 81 of chain 12. -/
def lanesTo8 : State :=
  let filling : Lane := { state := .filling, chain := 1, closed := true, bound := [1], quantity := 1 }
  { plant with lanes := { conveyor := some 40, lanes := (List.range 9).map (fun j => (j, filling)) } }

/-- R28, R104, R105: the reply gives acceptance 1 and lane 9, and the order is taken up at once (R30). -/
theorem test_order :
    let c : Instr := .order 5 81 1 12 true 0 0 [⟨401170, 4, 1⟩]
    answer c lanesTo8 = some (.done, [0, 1, 9])
      ∧ (after c lanesTo8).lane 9 = { state := .filling, chain := 12, bound := [81], quantity := 4 }
      ∧ (after c lanesTo8).planner.orders.map Order.state = [.planning]
      ∧ (after c lanesTo8).handed = [.planningStep 81 1] := by decide +kernel

/-- R28: an unknown article names its line, 17 tyres are too large, and an order id stands once. -/
theorem test_order_refusals :
    answer (.order 5 81 1 12 true 0 0 [⟨401170, 4, 1⟩, ⟨401171, 1, 0⟩]) plant = some (.unknownArticle, [2])
      ∧ answer (.order 5 81 1 0 true 0 0 [⟨401170, 8, 1⟩, ⟨401170, 8, 1⟩, ⟨401170, 1, 1⟩]) plant = some (.tooLarge, [])
      ∧ answer (.order 5 70 1 0 true 0 0 [⟨401170, 4, 1⟩]) reserved9 = some (.refusedState, []) := by decide +kernel

/-- R47: what is reserved and what remains become short; the member is released and the wake-up handed. -/
theorem test_orderCancel :
    answer (.orderCancel 5 70) reserved9 = some (.done, [0, 4])
      ∧ (after (.orderCancel 5 70) reserved9).planner.orders.map Order.state = [.cancelled]
      ∧ ((after (.orderCancel 5 70) reserved9).slot 9).content = .stored (tyre 4 1293)
      ∧ answer (.orderCancel 6 70) reserved9 = some (.notPermitted, [])
      ∧ answer (.orderCancel 5 71) reserved9 = some (.noSuchRecord, []) := by decide +kernel

/-- R48: the order is SHORT-CLOSED, by node 0 too, and only once. -/
theorem test_shortClose :
    answer (.shortClose 0 70 false) reserved9 = some (.done, [0, 4])
      ∧ (after (.shortClose 0 70 false) reserved9).planner.orders.map Order.state = [.shortClosed]
      ∧ answer (.shortClose 0 70 true) (withOrders [order70 .shortClosed []]) = some (.refusedState, []) := by
  decide +kernel

/-- R102: 1801 s is brought to 1800 s; a carousel's node is refused. -/
theorem test_setLanes :
    answer (.setLanes 5 41 1801) plant = some (.clamped, [])
      ∧ (after (.setLanes 5 41 1801) plant).lanes = { conveyor := some 41, transitTimeout := 1800 }
      ∧ answer (.setLanes 5 10 180) plant = some (.badArgument, []) := by decide +kernel

/-- R114: a READY lane opens; a FILLING one only by force, with the number of orders it short-closed. -/
theorem test_laneRelease :
    queued (.laneRelease 5 9 false) (lane9 { state := .ready }) = [(.lane 9, .laneOpen 9)]
      ∧ ((after (.laneRelease 5 9 false) (lane9 { state := .ready })).lane 9).state = .opening
      ∧ answer (.laneRelease 5 9 false) (lane9 { state := .filling }) = some (.refusedState, [])
      ∧ answer (.laneRelease 5 9 true) (lane9 { state := .filling, bound := [70], quantity := 4 } reserved9)
        = some (.done, [1]) := by decide +kernel

/-- 05, worked example, times 240 and 250: lane 9 with its six tyres. -/
def chain12 (foreign : Nat) (a3 : Entry) : State :=
  lane9 { state := .filling, chain := 12, closed := true, bound := [81, 82], quantity := 6, foreign := foreign,
          expected := [⟨1, 81, .arrived, none, 0⟩, ⟨2, 81, .arrived, none, 20000⟩, a3, ⟨11, 82, .arrived, none, 40000⟩,
            ⟨12, 82, .arrived, none, 45000⟩, ⟨4, 81, .arrived, none, 60000⟩] }
    (withOrders [{ order70 .complete [] with id := 81 }, { order70 .complete [] with id := 82 }]
      { plant with now := 240000 })

/-- 05, worked example, time 250: the count cleared is in the reply; LANE-READY with 2 orders, 5 ARRIVED, 1 LATE. -/
theorem test_laneClearForeign :
    let s := chain12 1 ⟨3, 81, .late, none, 25000⟩
    answer (.laneClearForeign 5 9) s = some (.done, [1])
      ∧ told (.laneClearForeign 5 9) s = [.laneReady 9 12 2 5 1]
      ∧ ((after (.laneClearForeign 5 9) s).lane 9).state = .ready := by decide +kernel

/-- R119, R130: ZONE-CYCLE enters the lowest active zone; a quota of 5 is refused. -/
theorem test_auditSet :
    (after (.auditSet 5 0 1 0x0009#16 2 true) plant).auditRecord 0
        = { mode := .zoneCycle, enabled := 0x0009#16, autoCorrect := true, cursor := some 0 }
      ∧ (after (.auditSet 5 0 1 0x0008#16 2 true) plant).auditRecord 0
        = { mode := .zoneCycle, enabled := 0x0008#16, autoCorrect := true, cursor := none }
      ∧ answer (.auditSet 5 0 1 0 5 true) plant = some (.badArgument, []) := by decide +kernel

/-- R175, R26: one order, one RESERVED and one INBOUND slot end; the INBOUND slot is EMPTY and fresh. -/
theorem test_restartOps :
    let s := slot0 8 (.inbound (tyre 5 1298)) reserved9
    answer (.restartOps 0) s = some (.done, [1, 0, 1, 1])
      ∧ told (.restartOps 0) s = [.restarted 1 1 1]
      ∧ (after (.restartOps 0) s).stock.slots = [(8, ⟨.empty, true⟩), (9, ⟨.stored (tyre 4 1293), false⟩)]
      ∧ answer (.restartOps 5) s = some (.notPermitted, []) := by decide +kernel

/-- R174: every block at its power-on values; the reply stands in the queue and STARTED names RESTART-ALL. -/
theorem test_restartAll :
    (after (.restartAll 0) reserved9).stock = {} ∧ (after (.restartAll 0) reserved9).ring.replies = [⟨0, 32, .done, []⟩]
      ∧ told (.restartAll 0) reserved9 = [.started 1 true true]
      ∧ answer (.restartAll 5) reserved9 = some (.notPermitted, []) := by decide +kernel

/-! ## Rows at the Motion Units (03) -/

/-- 03, worked example: carousel 3 of 60 carriers, carrier 52 at port, estimate 1500. -/
def car3 : Carousel := { state := .standing, carriers := 60, positions := 4, bidirectional := true, drive := some 20,
                         port := some 21, gate := some 22, atPort := 52 }

def plant3 (c : Carousel) (p : Port := { mode := .pick }) : State := (part.setCarousel 3 c).setPort 3 p

/-- 03, worked example, second call: POSITION 0 after 1200 ms gives 1463; then POSITION 1 after 1180 ms gives 1428. -/
theorem test_position :
    let moving (e at_ : Nat) : State := { plant3 { car3 with
      state := .moving, move := some ⟨.call, 20, some ⟨.forward, 23⟩⟩, estimate := e, positionsSeen := 2,
      lastPositionAt := at_ } with now := at_ + (if e = 1500 then 1200 else 1180) }
    ((after (.position 3 0) (moving 1500 3150)).carousel 3).estimate = 1463
      ∧ ((after (.position 3 0) (moving 1500 3150)).carousel 3).atPort = 0
      ∧ ((after (.position 3 1) (moving 1463 4350)).carousel 3).estimate = 1428 := by decide +kernel

/-- R62: a carrier number of N or more is a POSITION-MISMATCH fault. R65: so is ARRIVED at another carrier than the
target, with that carrier at port. -/
theorem test_position_mismatch :
    let s := plant3 { car3 with state := .moving, move := some ⟨.sweep, 57, some ⟨.forward, 60⟩⟩ }
    ((after (.position 0 16) plant).carousel 0).cause = some .positionMismatch
      ∧ queued (.position 0 16) plant = [(.drive 0, .stop)]
      ∧ told (.position 0 16) plant = [.carouselFault 0 .positionMismatch 0 none]
      ∧ ((after (.arrived 3 58) s).carousel 3).atPort = 58
      ∧ told (.arrived 3 58) s = [.carouselFault 3 .positionMismatch 58 (some (.sweep, 57))] := by decide +kernel

/-- The stops of the first call of 03's worked example. -/
def fourStops : List Stop := [⟨20, [task70 0], 410, 5⟩, ⟨7, [task70 0], 411, 0⟩, ⟨47, [task70 0], 415, 1⟩, ⟨57, [task70 0], 418, 0⟩]

/-- 03, worked example: ARRIVED 57 ends the move, and the stop for 57 is presented. -/
theorem test_arrived :
    let s := plant3 { car3 with state := .moving, move := some ⟨.call, 57, some ⟨.forward, 5⟩⟩, moveTimer := some 13250,
                                stops := fourStops } { mode := .pick, work := .calling }
    ((after (.arrived 3 57) s).carousel 3).state = .standing
      ∧ ((after (.arrived 3 57) s).carousel 3).stops.map (fun x => x.carrier) = [20, 7, 47]
      ∧ ((after (.arrived 3 57) s).port 3).work = .presenting ⟨57, [task70 0], 418, 0, []⟩
      ∧ ((after (.arrived 3 57) s).port 3).timer = some 120000 := by decide +kernel

/-- R83: an ARRIVAL finds its port IDLE again. The old CALL's stop goes back to its list, and the auto-call, told of
STANDING, presents it where it stands; after an old STORE-CALL the auto-call's own CALL runs, its port CALLING. -/
theorem test_arrived_at_an_idle_port :
    let s (p : Purpose) := plant3 { car3 with state := .moving, move := some ⟨p, 57, some ⟨.forward, 5⟩⟩,
                                              stops := [⟨57, [task70 0], 418, 0⟩] } { mode := .pick, autoCall := true }
    let away := (s .storeCall).onCarousel 3 fun c => { c with stops := [⟨20, [task70 0], 410, 0⟩] }
    let t := after (.arrived 3 57) (s .call)
    let u := after (.arrived 3 57) away
    (t.carousel 3).state = .standing ∧ (t.carousel 3).stops = [] ∧ (t.port 3).work = .presenting ⟨57, [task70 0], 418, 0, []⟩
      ∧ (u.carousel 3).state = .moving ∧ (u.carousel 3).move.map Move.purpose = some .call ∧ (u.port 3).work = .calling := by
  decide +kernel

/-- R69, R72: a foreign commander makes the carousel yield; a fault code under the part's own command faults it. -/
theorem test_driveStatus :
    ((after (.driveStatus 0 (some 18) none) plant).carousel 0).state = .yielded
      ∧ told (.driveStatus 0 (some 18) none) plant = [.carouselYielded 0 18]
      ∧ ((after (.driveStatus 0 (some 1) (some 7)) plant).carousel 0).cause = some .driveFault
      ∧ ((after (.driveStatus 0 none none) plant).carousel 0).state = .standing := by decide +kernel

/-- R72: an observed foreign motion telegram makes the carousel yield and withdraws the waiting telegram. -/
theorem test_foreignMotionTelegram :
    let s := plant.queueField (.drive 0) .stop
    ((after (.foreignMotionTelegram 0 18) s).carousel 0).state = .yielded
      ∧ queued (.foreignMotionTelegram 0 18) s = [] := by decide +kernel

/-- R70: the drive has not taken its telegram: DRIVE-ABSENT; OFFLINE nothing changes. -/
theorem test_returnedMotionTelegram :
    ((after (.returnedMotionTelegram 0) plant).carousel 0).cause = some .driveAbsent
      ∧ ((after (.returnedMotionTelegram 0) (carousel0 fun c => { c with state := .offline })).carousel 0).cause = none := by
  decide +kernel

/-- 03, worked example of the curtain: BROKEN in a move stops it and keeps the move. -/
theorem test_curtain :
    let m : Move := ⟨.call, 31, some ⟨.forward, 11⟩⟩
    let s := plant3 { car3 with state := .moving, atPort := 24, move := some m, moveTimer := some 5000 }
    ((after (.curtain 3 true) s).carousel 3).state = .interrupted ∧ ((after (.curtain 3 true) s).carousel 3).move = some m
      ∧ ((after (.curtain 3 true) s).carousel 3).moveTimer = none ∧ queued (.curtain 3 true) s = [(.drive 3, .stop)] := by
  decide +kernel

/-- R66: CLEAR starts the resume dwell of 2000 ms, BROKEN stops it. -/
theorem test_curtain_dwell :
    let s (b : Bool) := plant3 { car3 with
      state := .interrupted, atPort := 25, move := some ⟨.call, 31, some ⟨.forward, 11⟩⟩, curtainBroken := b,
      dwellTimer := if b then none else some 700 }
    ((after (.curtain 3 false) (s true)).carousel 3).dwellTimer = some 2000
      ∧ ((after (.curtain 3 true) (s false)).carousel 3).dwellTimer = none := by decide +kernel

/-- R64, R68: the move timer's expiry is a MOVE-TIMEOUT fault; a stopped timer does not expire. -/
theorem test_moveTimerExpiry :
    let s := plant3 { car3 with state := .moving, move := some ⟨.sweep, 52, some ⟨.forward, 60⟩⟩, moveTimer := some 0 }
    ((after (.moveTimerExpiry 3) s).carousel 3).cause = some .moveTimeout
      ∧ ((after (.moveTimerExpiry 0) plant).carousel 0).state = .standing := by decide +kernel

/-- 03, worked example of the curtain: from carrier 25 to 31, 6 FORWARD, and at 1428 ms a timer of 14,852 ms. -/
theorem test_resumeDwellExpiry :
    let s := plant3 { car3 with
      state := .interrupted, atPort := 25, move := some ⟨.call, 31, some ⟨.forward, 11⟩⟩, estimate := 1428,
      dwellTimer := some 0 }
    ((after (.resumeDwellExpiry 3) s).carousel 3).move = some ⟨.call, 31, some ⟨.forward, 6⟩⟩
      ∧ ((after (.resumeDwellExpiry 3) s).carousel 3).moveTimer = some 14852
      ∧ queued (.resumeDwellExpiry 3) s = [(.drive 3, .move 31 ⟨.forward, 6⟩)] := by decide +kernel

/-- R74: the expiry requests a full turn, which ends at the carrier at port. -/
theorem test_idleSweepExpiry :
    let s := plant3 { car3 with sweepTimer := some 0 }
    queued (.idleSweepExpiry 3) s = [(.drive 3, .move 52 ⟨.forward, 60⟩)]
      ∧ ((after (.idleSweepExpiry 3) s).carousel 3).moveTimer = some 137000 := by decide +kernel

/-! ## Rows at the Port Sequencers (04) -/

/-- 03, worked example, first call: carriers 47 and 57 tie at 5, and 57 is reached FORWARD; the others gain a bypass. -/
theorem test_ready :
    let s := plant3 { car3 with stops := fourStops }
    queued (.ready 3) s = [(.drive 3, .move 57 ⟨.forward, 5⟩)]
      ∧ ((after (.ready 3) s).carousel 3).stops.map (fun x => (x.carrier, x.bypass)) = [(20, 6), (7, 1), (47, 2), (57, 0)]
      ∧ ((after (.ready 3) s).carousel 3).moveTimer = some 13250 ∧ ((after (.ready 3) s).port 3).work = .calling := by
  decide +kernel

/-- 03, worked example, second call: the stop for 20 has reached the limit; 23 FORWARD from 57, 53,750 ms. -/
theorem test_ready_at_the_bypass_limit :
    let s := plant3 { car3 with atPort := 57, stops :=
      [⟨20, [task70 0], 410, 6⟩, ⟨7, [task70 0], 411, 1⟩, ⟨47, [task70 0], 415, 2⟩, ⟨55, [task70 0], 420, 0⟩] }
    queued (.ready 3) s = [(.drive 3, .move 20 ⟨.forward, 23⟩)] ∧ ((after (.ready 3) s).carousel 3).moveTimer = some 53750
      ∧ ((after (.ready 3) s).carousel 3).stops.map (fun x => (x.carrier, x.bypass)) = [(20, 6), (7, 2), (47, 3), (55, 1)] := by
  decide +kernel

/-- 04, worked example: carrier 14 of carousel 5 is presented for T4 (tag 4) at position 2; T10 and T11 lie beside it.
The picked extremes are 1274, and T3 and T5 are reserved on carousel 2. -/
def presented : State :=
  let l : Line := { line70 [⟨1536, 1291⟩, ⟨1537, 1294⟩, ⟨3954, 1293⟩] with picked := 1, extremes := some (1274, 1274) }
  let s : State := { plant.setCarousel 5 { car3 with atPort := 14 } with
    planner := ⟨[{ order70 .active [{ l with captured := some ⟨26, 78, false⟩ }] with unsettled := 1 }], 1⟩ }
  let t := lane9 { state := .filling, closed := true, bound := [70], quantity := 4 } s
  let u := slot0 3952 (.stored (tyre 10 1296)) (slot0 3954 (.reserved (tyre 4 1293) 70 1)
    (slot0 3955 (.stored (tyre 11 1310)) (slot0 1536 (.reserved (tyre 3 1291) 70 1)
      (slot0 1537 (.reserved (tyre 5 1294) 70 1) t))))
  (u.setPort 5 { mode := .pick, work := .presenting ⟨14, [task70 2], 502, 1, []⟩, timer := some 50000 }).rebuild 5

/-- 04, worked example: T11 hands a substitution request for slot 3954, T4 itself a pick request; an unknown tag is a
wrong tyre. -/
theorem test_scan :
    (after (.scan 5 11 401170 39 24) presented).handed = [.substitutionRequest 5 3955 3954]
      ∧ (after (.scan 5 4 401170 22 24) presented).handed = [.pickRequest 5 4 70 1]
      ∧ ((after (.scan 5 99 401170 22 24) presented).port 5).wrongTyreCount = 1
      ∧ ((after (.scan 5 99 401170 22 24) presented).port 5).display.message = .wrongTyre
      ∧ ((after (.scan 0 0 1 1 0) plant).port 0).strayCount = 1 := by decide +kernel

/-- 01, worked sequence: of the grouped carriers 3, 12 and 30 carrier 3 is nearest to 5, and slot 792 is chosen. -/
def plant1 : State :=
  let grouped : Bank := { bank with profiles := [(3, { window := 26, strategy := .grouped })] }
  let s : State := { part.setCarousel 1 { car with carriers := 40, positions := 4, atPort := 5 } with
    stock := { calendar := ⟨14, 25, 1338, true⟩ }, policy := { bankA := grouped } }
  (slot0 864 (.stored (tyre 1 1274)) (slot0 794 (.stored (tyre 3 1291)) (slot0 1009 (.stored (tyre 7 1291)) s))).setPort 1
    { mode := .store }

theorem test_scan_for_storing :
    let t := after (.scan 1 9 401170 20 24) plant1
    t.slot 792 = ⟨.inbound (tyre 9 1291), true⟩ ∧ (t.port 1).putaway = some ⟨tyre 9 1291, 792⟩
      ∧ t.ring.field.map (fun e => e.command) = [.move 3 ⟨.backward, 2⟩]
      ∧ told (.scan 1 9 401170 54 24) plant1 = [.putawayEnded 1 9 401170 54 24 none .refused (some .badDate)] := by
  decide +kernel

/-- The put-away of 01's worked sequence with carrier 3 at the port. -/
def placing : State :=
  (slot0 792 (.inbound (tyre 9 1291)) (plant1.onCarousel 1 (fun c => { c with atPort := 3 }))).setPort 1
    { mode := .store, work := .placing 3, putaway := some ⟨tyre 9 1291, 792⟩, timer := some 5000 }

/-- 01, worked sequence: PLACED at position 1 stores T9 in slot 793, and 792 is EMPTY; position 2 holds T3, which makes
a CONFLICT of the placed tyre (R14). -/
theorem test_placed :
    (after (.placed 1 1) placing).slot 793 = ⟨.stored (tyre 9 1291), true⟩
      ∧ (after (.placed 1 1) placing).slot 792 = ⟨.empty, true⟩
      ∧ (after (.placed 1 1) placing).handed = [.wakeUp 401170] ∧ ((after (.placed 1 1) placing).port 1).work = .idle
      ∧ (after (.placed 1 2) placing).slot 794 = ⟨.held (.conflict (tyre 9 1291)), true⟩
      ∧ told (.placed 1 2) placing = [.auditDiscrepancy 1 ⟨1, 794, .displaced, some 3, some 9, none⟩] := by decide +kernel

/-- R93: SKIP returns the remaining task with the stop's creation sequence and one bypass more. -/
theorem test_skip :
    ((after (.skip 5) presented).carousel 5).stops = [⟨14, [task70 2], 502, 2⟩]
      ∧ ((after (.skip 5) presented).port 5).work = .idle := by decide +kernel

/-- R93: as SKIP, with PRESENTATION-TIMEOUT; at a placement the put-away ends (R97). -/
theorem test_presentationTimerExpiry :
    told (.presentationTimerExpiry 5) presented = [.presentationTimeout 5 14 1 502]
      ∧ ((after (.presentationTimerExpiry 5) presented).carousel 5).stops = [⟨14, [task70 2], 502, 2⟩]
      ∧ told (.presentationTimerExpiry 1) placing = [.putawayEnded 1 9 401170 20 24 (some 792) .timeout none] := by
  decide +kernel

/-- R87: the port is absent and CLOSED; the stop returns with its bypass count unchanged. -/
theorem test_returnedDisplay :
    ((after (.returnedDisplay 5) presented).port 5).absent = true
      ∧ ((after (.returnedDisplay 5) presented).port 5).mode = .closed
      ∧ told (.returnedDisplay 5) presented = [.portAbsent 5 (some 21)]
      ∧ ((after (.returnedDisplay 5) presented).carousel 5).stops = [⟨14, [task70 2], 502, 1⟩] := by decide +kernel

/-- R98: a slot taken from the put-away is chosen afresh: carrier 3 still has position 1 free, beside slot 794. -/
theorem test_putawayWithdrawn :
    let s := slot0 792 (.held (.unexpected 9999)) placing
    (after (.putawayWithdrawn 1 792) s).slot 793 = ⟨.inbound (tyre 9 1291), true⟩
      ∧ ((after (.putawayWithdrawn 1 792) s).port 1).putaway = some ⟨tyre 9 1291, 793⟩
      ∧ ((after (.putawayWithdrawn 1 792) s).port 1).work = .placing 3 := by decide +kernel

/-- R98: the tyre was found at slot 1010, and the put-away ends. -/
theorem test_putawayFoundElsewhere :
    told (.putawayFoundElsewhere 1 792 1010) placing = [.putawayEnded 1 9 401170 20 24 (some 1010) .foundElsewhere none]
      ∧ ((after (.putawayFoundElsewhere 1 792 1010) placing).port 1).putaway = none
      ∧ after (.putawayFoundElsewhere 1 793 1010) placing = placing := by decide +kernel

/-! ## Rows at the Planner and the Stock Unit (02, 01) -/

/-- 02, worked example: six tyres of the article on carousels 2 and 5. -/
def sixTyres : State :=
  let s := ((part.setCarousel 2 { car with positions := 8 }).setCarousel 5 { car with positions := 8 })
  let s : State := { s with stock := { calendar := ⟨14, 25, 1338, true⟩ }, policy := { bankA := bank } }
  slot0 1536 (.stored (tyre 2 1258)) (slot0 1537 (.stored (tyre 3 1291)) (slot0 1538 (.stored (tyre 5 1294))
    (slot0 3840 (.stored (tyre 1 1274)) (slot0 3841 (.stored (tyre 4 1293)) (slot0 3842 (.stored (tyre 6 1326)) s)))))

/-- 02, worked example under a bank whose profile has max age 78 (T2 fails it): T1, T3, T4 and T5 are reserved, in the
order of the candidate list, and their tasks stand on carousels 5 and 2. -/
theorem test_planningStep :
    let s := withOrders [order70 .planning [{ line70 [] with captured := none }]] sixTyres
    let t := after (.planningStep 70 1) s
    t.planner.orders.map (fun o => (o.state, o.lines.map Line.members))
        = [(.active, [[⟨3840, 1274⟩, ⟨1537, 1291⟩, ⟨3841, 1293⟩, ⟨1538, 1294⟩]])]
      ∧ (t.carousel 5).stops = [⟨0, [⟨70, 1, 0, 9, 26⟩, ⟨70, 1, 1, 9, 26⟩], 0, 0⟩]
      ∧ (t.carousel 2).stops = [⟨0, [⟨70, 1, 1, 9, 26⟩, ⟨70, 1, 2, 9, 26⟩], 1, 0⟩]
      ∧ (t.slot 1536).content = .stored (tyre 2 1258) ∧ (t.slot 3840).content = .reserved (tyre 1 1274) 70 1 := by
  decide +kernel

/-- R33: an article that the bank no longer knows makes the line SHORT, with its notice. R45: the step of a marked line
whose wait expiry made its order COMPLETE removes the mark. -/
theorem test_planningStep_unknown_article_and_mark :
    let s := withOrders [order70 .planning [{ line70 [] with article := 402210, captured := none }]] sixTyres
    let expired := withOrders [order70 .complete [{ line70 [] with short := 4, mark := some ⟨none⟩ }]] sixTyres
    told (.planningStep 70 1) s = [.orderShort 70 5 1 402210 4 .unknownArticle, .orderComplete 70 5 1 9 0 4 0]
      ∧ ((after (.planningStep 70 1) expired).findLine 70 1).map (fun l => (l.mark, l.state)) = some (none, .short) := by
  decide +kernel

/-- R44: a marked MATCH line's members are released before its step. -/
theorem test_replan :
    let s := withOrders [order70 .active [{ line70 [⟨3842, 1326⟩] with mark := some ⟨none⟩ }]] sixTyres
    (after (.replan 70 1 .mark) s).handed = [.release 3842 70 1, .planningStep 70 1]
      ∧ (after (.replan 70 1 .mark) reserved9).handed = [] := by decide +kernel

/-- R17: the slot returns to STORED, its task leaves, the member leaves the line, and the wake-up is handed. -/
theorem test_release :
    let t := after (.release 9 70 1) reserved9
    (t.slot 9).content = .stored (tyre 4 1293) ∧ (t.carousel 0).stops = [] ∧ t.handed = [.wakeUp 401170]
      ∧ (t.findLine 70 1).map Line.members = some []
      ∧ ((after (.release 9 70 2) reserved9).slot 9).content = .reserved (tyre 4 1293) 70 1 := by decide +kernel

/-- R46: a WAITING line of the article is replanned; an OPEN one is not. -/
theorem test_wakeUp :
    let s (wait : Option Nat) := withOrders [order70 .active [{ line70 [] with wait := wait }]]
    (after (.wakeUp 401170) (s (some 1000))).handed = [.replan 70 1 .wakeUp]
      ∧ (after (.wakeUp 401170) (s none)).handed = [] ∧ (after (.wakeUp 401171) (s (some 1000))).handed = [] := by
  decide +kernel

/-- R45: the remainder becomes short with WAIT-EXPIRED, and the order, its line SHORT, is COMPLETE (R49). -/
theorem test_waitTimerExpiry :
    let s := withOrders [order70 .active [{ line70 [] with wait := some 0 }]]
    told (.waitTimerExpiry 70 1) s = [.orderShort 70 5 1 401170 4 .waitExpired, .orderComplete 70 5 1 9 0 4 0]
      ∧ (after (.waitTimerExpiry 70 1) s).planner.orders.map Order.state = [.complete] := by decide +kernel

/-- R19, R42: the slot is EMPTY and fresh, the line counts the pick, and the tyre is expected in lane 9. The last task
picked ends the presentation (R92). -/
theorem test_pickRequest :
    let t := after (.pickRequest 5 4 70 1) presented
    t.slot 3954 = ⟨.empty, true⟩
      ∧ (t.findLine 70 1).map (fun l => (l.members.length, l.picked, l.extremes)) = some (2, 2, some (1274, 1293))
      ∧ (t.lane 9).expected = [⟨4, 70, .inTransit, some 180000, 0⟩]
      ∧ (t.findOrder 70).map Order.unsettled = some 2 ∧ (t.port 5).work = .idle := by decide +kernel

/-- 04, worked example: T11 is refused, since 1310 - 1274 exceeds 26; T10 is accepted. -/
theorem test_substitutionRequest :
    let r := after (.substitutionRequest 5 3955 3954) presented
    let t := after (.substitutionRequest 5 3952 3954) presented
    (r.port 5).wrongTyreCount = 1 ∧ (r.port 5).display.message = .wrongTyre ∧ (r.port 5).timer = some 50000
      ∧ r.stock = presented.stock
      ∧ t.slot 3952 = ⟨.empty, true⟩ ∧ t.slot 3954 = ⟨.stored (tyre 4 1293), false⟩
      ∧ (t.findLine 70 1).map (fun l => (l.members, l.picked, l.extremes, l.state))
        = some ([⟨1536, 1291⟩, ⟨1537, 1294⟩], 2, some (1274, 1296), .reserved)
      ∧ (t.findOrder 70).map Order.unsettled = some 2
      ∧ (t.lane 9).expected = [⟨10, 70, .inTransit, some 180000, 0⟩]
      ∧ (t.port 5).display = ⟨[.pickDone 9, .dark, .dark, .dark, .dark, .dark, .dark, .dark], .none⟩ := by decide +kernel

/-! ## Rows at the Lane Unit (05) -/

/-- 05, worked example, time 240: A3, LOST, arrives 215 s after its pick and is LATE; the lane stays FILLING while its
foreign count is 1, and with a count of 0 it would be READY. -/
theorem test_arrive :
    let s (foreign : Nat) := chain12 foreign ⟨3, 81, .lost, none, 25000⟩
    told (.arrive 9 3) (s 1) = [.lateArrival 9 3 81 215]
      ∧ ((after (.arrive 9 3) (s 1)).lane 9).expected[2]? = some ⟨3, 81, .late, none, 25000⟩
      ∧ ((after (.arrive 9 3) (s 1)).lane 9).state = .filling
      ∧ told (.arrive 9 3) (s 0) = [.lateArrival 9 3 81 215, .laneReady 9 12 2 5 1] := by decide +kernel

/-- 05, worked example, time 150: tag X7 is expected in lane 14. -/
theorem test_arrive_foreign :
    let s := (chain12 0 ⟨3, 81, .inTransit, some 1000, 25000⟩).setLane 14
      { state := .filling, expected := [⟨7, 90, .inTransit, some 1000, 0⟩] }
    told (.arrive 9 7) s = [.misrouted 9 7 (some 14)] ∧ ((after (.arrive 9 7) s).lane 9).foreign = 1
      ∧ ((after (.arrive 9 7) s).lane 14).expected = [⟨7, 90, .inTransit, some 1000, 0⟩] := by decide +kernel

/-- 05, worked example, time 205: A3's timer expires. -/
theorem test_transitTimerExpiry :
    let s := chain12 1 ⟨3, 81, .inTransit, some 0, 25000⟩
    told (.transitTimerExpiry 9 2) s = [.transitLost 9 3 81 5]
      ∧ ((after (.transitTimerExpiry 9 2) s).lane 9).expected[2]? = some ⟨3, 81, .lost, none, 25000⟩ := by decide +kernel

/-- R115: the lane empties with its orders, its counts in the notice; a lane that is not OPENING ignores the report. -/
theorem test_laneEmpty :
    let s := (chain12 1 ⟨3, 81, .late, none, 25000⟩).onLane 9 (fun l => { l with state := .opening })
    told (.laneEmpty 9) s = [.laneEmptied 9 12 5 1 0 0 1] ∧ (after (.laneEmpty 9) s).planner.orders = []
      ∧ (after (.laneEmpty 9) s).lane 9 = {}
      ∧ told (.laneEmpty 9) (lane9 { state := .ready }) = [] := by decide +kernel

/-- R115, R106: a lane that opened empties, and a waiting chain takes the freed lane. -/
theorem test_laneEmpty_offers_the_lane :
    let s := lane9 { state := .opening } (withOrders [{ order70 .laneWait [line70 []] with lane := none }]
      { plant with lanes := { conveyor := some 40, waiting := [⟨0, true, [70], 4⟩] } })
    ((after (.laneEmpty 9) s).lane 9) = { state := .filling, closed := true, bound := [70], quantity := 4 }
      ∧ (after (.laneEmpty 9) s).lanes.waiting = [] ∧ (after (.laneEmpty 9) s).handed = [.planningStep 70 1] := by
  decide +kernel

/-- R115: a returned LANE-OPEN; the lane, fit, is READY again. -/
theorem test_returnedLaneOpen :
    let s := (chain12 0 ⟨3, 81, .late, none, 25000⟩).onLane 9 (fun l => { l with state := .opening })
    told (.returnedLaneOpen 9) s = [.laneOpenFailed 9 .ready] ∧ ((after (.returnedLaneOpen 9) s).lane 9).state = .ready := by
  decide +kernel

/-! ## Rows at the Audit Unit and the Policy Store (06, 08) -/

/-- 06, worked example: carousel 4 of 48 carriers of 4 positions, zone 3 from carrier 30 to 35. -/
def audited (content3321 : Content) : State :=
  let zones := (List.range 6).map (fun x => (x + 30, 3))
  let streaks := [(30, 2), (31, 1), (32, 2), (33, 1), (34, 2), (35, 2)]
  let record : AuditRecord :=
    { mode := .zoneCycle, enabled := 0x0228#16, autoCorrect := true, cursor := some 3, streaks := streaks }
  let s : State := { part.setCarousel 4 { car with carriers := 48, positions := 4, zones := zones } with
    policy := { bankA := bank }, audit := { logCount := 140, records := [(4, record)] } }
  slot0 3320 (.stored ⟨20, 500210, 1280⟩) (slot0 3321 content3321 (slot0 3322 (.stored ⟨22, 500450, 1290⟩) s))

/-- 06, worked example: the swap is corrected, with entries 141 and 142, a count of 2 and a streak of 0. With slot 3321
RESERVED both slots are HELD as SWAPPED, and the reservation is cancelled. -/
theorem test_gate_swaps :
    let reading : Instr := .gate 4 31 [21, 20, 22, 0, 0, 0, 0, 0]
    let t := after reading (audited (.stored ⟨21, 500210, 1301⟩))
    let u := after reading ((withOrders [{ order70 .active [line70 [⟨3321, 1301⟩]] with id := 88 }]
      (audited (.reserved ⟨21, 500210, 1301⟩ 88 1))).onCarousel 4
        (fun c => { c with stops := [⟨31, [⟨88, 1, 1, 9, 26⟩], 3, 0⟩] }))
    t.slot 3320 = ⟨.stored ⟨21, 500210, 1301⟩, true⟩ ∧ t.slot 3321 = ⟨.stored ⟨20, 500210, 1280⟩, true⟩
      ∧ t.audit.log = [⟨141, 3320, .corrected, some 20, some 21, none⟩, ⟨142, 3321, .corrected, some 21, some 20, none⟩]
      ∧ (t.auditRecord 4).count 3 = 2 ∧ (t.auditRecord 4).streak 31 = 0 ∧ (t.auditRecord 4).reports = 1
      ∧ (u.slot 3320).content = .held (.swapped ⟨20, 500210, 1280⟩)
      ∧ (u.slot 3321).content = .held (.swapped ⟨21, 500210, 1301⟩) ∧ (u.carousel 4).stops = []
      ∧ u.handed = [.replan 88 1 .mark]
      ∧ u.audit.log.map (fun e => (e.sequence, e.kind)) = [(141, .swapped), (142, .swapped)] := by decide +kernel

/-- 06, worked example of the FOREIGN move: T40 of slot 3307 is seen at slot 3338. Certification: with 33 at 1 and the
others at 2, a clean pass of 33 certifies zone 3 over its 6 carriers, and of the zones enabled (3, 5 and 9) the next that
has carriers is entered. -/
theorem test_gate_foreign_move_and_certification :
    let s := (audited (.stored ⟨21, 500210, 1301⟩)).setSlot 3307 ⟨.stored ⟨40, 500450, 1293⟩, false⟩
    let t := after (.gate 4 33 [0, 0, 40, 0, 0, 0, 0, 0]) s
    let u := ((audited .empty).onAudit 4 (fun a => { a with streaks :=
      [(30, 2), (31, 2), (32, 2), (33, 1), (34, 2), (35, 2)], counts := [(3, 3)] })).onCarousel 4
        (fun c => { c with zones := c.zones ++ [(40, 9), (41, 5)] })
    (t.slot 3338).content = .held (.foreign 40 (some ⟨500450, 1293⟩)) ∧ (t.slot 3307).content = .held .vacated
      ∧ t.audit.log = [⟨141, 3338, .foreign, none, some 40, some 3307⟩] ∧ (t.auditRecord 4).streak 33 = 0
      ∧ t.tagSlot 40 = some 3338
      ∧ told (.gate 4 33 [0, 0, 0, 0, 0, 0, 0, 0]) u = [.auditZoneCertified 4 3 3 6]
      ∧ ((after (.gate 4 33 [0, 0, 0, 0, 0, 0, 0, 0]) u).auditRecord 4).cursor = some 5 := by decide +kernel

/-- R158: the session ends with LOAD-ABORTED. -/
theorem test_sessionTimerExpiry :
    let s := withSession ⟨.profile, .merge, 0, 0#32, false, 2, 0⟩ plant
    told .sessionTimerExpiry s = [.loadAborted .profile .merge 0 2 false]
      ∧ (after .sessionTimerExpiry s).policy.session = none ∧ told .sessionTimerExpiry plant = [] := by decide +kernel

/-! ## Figures of the worked examples -/

/-- R10 and its table: ages at Cal 1338, and the edge of date-ahead; ages at the turn of the century, Cal 9. -/
theorem test_ages :
    [1258, 1338, 1344, 2397, 2398].map (fun p => (plant.age p, plant.isDateAhead p))
        = [(80, false), (0, false), (5294, true), (4241, true), (4240, false)]
      ∧ (let s : State := { plant with stock := { calendar := ⟨10, 0, 9, true⟩ } }; [5296, 4].map s.age = [13, 5]) := by
  decide +kernel

/-- R64 and 03's worked example: the lengths of move timers. -/
theorem test_move_timers :
    [(1500, 5), (1500, 23), (1428, 40), (10000, 96), (1500, 0)].map (fun x =>
      ({ estimate := x.1 } : Carousel).moveTime x.2) = [13250, 53750, 87680, 600000, 2000] := by decide +kernel

/-- R59 and 03's table: travels from carrier 52 of 60. -/
theorem test_travels : [20, 7, 47, 57].map car3.travel
    = [⟨.forward, 28⟩, ⟨.forward, 15⟩, ⟨.backward, 5⟩, ⟨.forward, 5⟩] := by decide +kernel

/-- R178: the check word of the bytes 31 to 39 (the usual check string for these parameters) is 29B1. 10, worked
example: the session check of 08 01. -/
theorem test_checks : crc16 [0x31, 0x32, 0x33, 0x34, 0x35, 0x36, 0x37, 0x38, 0x39] = 0x29B1#16
    ∧ crc32From 0xFFFFFFFF#32 [8, 1] = 0x8E3E3A98#32 := by decide +kernel

/-- 02, worked example, other settings: the sets that max age, window and same-carousel give. -/
theorem test_selections :
    let pick (rule : SetRule) (window maxAge q : Nat) (same : Bool) :=
      let r := ({ line70 [] with rule := rule } : Line).select ⟨window, maxAge, same⟩ q (sixTyres.candidates 401170 maxAge none)
      (r.1.map Member.ordinal, r.2)
    pick .matching 26 0 4 false = ([1274, 1291, 1293, 1294], false)
      ∧ pick .matching 26 78 4 false = ([1274, 1291, 1293, 1294], false)
      ∧ pick .matching 16 78 4 false = ([], false)
      ∧ pick .matchingOrOldest 16 78 4 false = ([1274, 1291, 1293, 1294], true)
      ∧ pick .matching 16 0 4 false = ([], false)
      ∧ pick .matching 26 0 2 false = ([1258, 1274], false)
      ∧ pick .matching 26 0 2 true = ([1274, 1293], false) := by decide +kernel

/-- 09, worked example: at 62 notices one joins as 463; at 63 an OVERFLOW 464 stands for the next, and it takes in what
follows even after one has left. -/
def nearlyFull (n : Nat) : State :=
  { part with
    ring := { part.ring with notices := (List.range n).map (fun i => ⟨401 + i, .started 1 true false⟩) }
    command := { noticeSequence := 400 + n } }

theorem test_notice_overflow :
    let lost : Notice := .gateSilent 4 (some 12)
    let t := (nearlyFull 62).notify lost
    t.command.noticeSequence = 463 ∧ t.ring.notices.length = 63
      ∧ (t.notify lost).ring.notices.getLast? = some ⟨464, .overflow 1 .audit 17⟩
      ∧ ((t.notify lost).notify (.carouselYielded 0 9)).ring.notices.getLast? = some ⟨464, .overflow 2 .audit 17⟩
      ∧ ((t.notify lost).notify (.carouselYielded 0 9)).command.noticesLost = 2 := by decide +kernel

/-! ## Witnesses: the line and the whole part

For each obligation that has hypotheses, states and operands that meet them. A fact such as `x.move = some m` with a
literal `m` stands for the hypothesis that such an `m` exists, and `w = .idle` for the one that no presentation stands. -/

/-- The configured nodes of the traffic example lie in one carousel, each in one role. -/
theorem traffic_nodesDistinct : NodesDistinct traffic := by
  have h : ∀ k : CarouselNo,
      (k = 2 ∧ (traffic.carousel k).drive = some 30 ∧ (traffic.carousel k).port = some 31
        ∧ (traffic.carousel k).gate = some 32)
      ∨ ((traffic.carousel k).drive = none ∧ (traffic.carousel k).port = none ∧ (traffic.carousel k).gate = none) := by
    decide +kernel
  have c : traffic.lanes.conveyor = some 40 := rfl
  constructor
  · intro j k n hj hk
    rcases h j with ⟨rfl, a⟩ | a <;> rcases h k with ⟨rfl, b⟩ | b <;> simp_all [Carousel.usesNode]
  · intro k n hd; rcases h k with ⟨rfl, a⟩ | a <;> simp_all
  · intro k n hd; rcases h k with ⟨rfl, a⟩ | a <;> simp_all
  · intro k n hd; rcases h k with ⟨rfl, a⟩ | a <;> simp_all
  · intro k n hc
    have : n = 40 := by simp_all
    subst this
    rcases h k with ⟨rfl, a⟩ | a <;> simp_all [Carousel.usesNode]

theorem witness_StepRunsFrontCommand :
    ({ part with pending := [.transmissionComplete, .identify 5] } : State).pending
      = .transmissionComplete :: [.identify 5] := rfl

/-- RESET held; an event handed; an expiry due; a transmission under way; nothing at all; and the unaddressed part. -/
theorem witness_IdlePartTakesItsOwnEvents :
    let quiet : State := { part with ring := {} }
    (∀ s ∈ [{ part with resetHeld := true }, part, quiet, { part with address := 63 }], State.pending s = [])
      ∧ part.serving = true ∧ part.handed = [] ∧ part.dueTimer = none ∧ part.ring.transmitter.isSome = true
      ∧ (part.hand [.ready 0]).handed = [.ready 0]
      ∧ (part.setCarousel 7 { car with state := .moving, moveTimer := some 0 }).dueTimer = some (.moveTimerExpiry 7)
      ∧ quiet.serving = true ∧ quiet.dueTimer = none ∧ quiet.ring.transmitter = none
      ∧ ({ part with address := 63 } : State).serving = false ∧ ({ part with address := 0 } : State).serving = false
      ∧ ({ quiet with address := 63 } : State).ring.transmitter = none := by decide +kernel

/-- A state that meets the invariants and has a next state. -/
theorem witness_EveryStepKeepsTheQueues : QueuesOk sending ∧ ∃ t, step sending = .next t :=
  ⟨⟨by decide +kernel, by unfold fieldOk; decide +kernel, by decide +kernel, by unfold noticesOk; decide +kernel,
    by decide +kernel⟩, _, rfl⟩

theorem witness_EveryStepKeepsBanksCountersAndTables :
    (ActiveBankValid sending ∧ CountersOk sending.ring.counters ∧ TablesOk sending) ∧ ∃ t, step sending = .next t :=
  ⟨⟨by unfold ActiveBankValid; decide +kernel, by constructor <;> decide +kernel,
    by constructor <;> decide +kernel⟩, _, rfl⟩

theorem witness_EveryStepKeepsNodesDistinct : NodesDistinct traffic ∧ ∃ t, step traffic = .next t :=
  ⟨traffic_nodesDistinct, _, rfl⟩

/-- The straps at the ends of both ranges; a command while RESET is held. -/
theorem witness_ResetHoldsAndPowerOnStarts :
    (∀ adr ∈ [0, 63], adr = 0 ∨ adr = 63) ∧ (∀ adr ∈ [1, 62], 1 ≤ adr ∧ adr ≤ 62)
      ∧ ({ part with resetHeld := true } : State).resetHeld = true ∧ Instr.ready 7 ≠ .resetAsserted
      ∧ ∀ adr svc, Instr.ready 7 ≠ .powerOn adr svc :=
  ⟨by decide, by decide, rfl, nofun, nofun⟩

/-- The longest commands, at the upper ends of their fields. -/
theorem witness_CommandPayloadReadsBack :
    ∀ c ∈ [Instr.order 63 65535 255 255 true 255 65535 (List.replicate 9 ⟨16777215, 255, 255⟩),
        .loadSlots 63 (List.replicate 4 ⟨65535, 255, 4294967295, 16777215, 255, 255⟩),
        .setZoneMap 63 255 255 (List.replicate 52 255)],
      c.wellFormed = true ∧ c.commandSource = some 63 ∧ (∀ p, c ≠ .badCommandNumber 63 p)
        ∧ (∀ n bytes, c ≠ .loadRecord 63 n bytes) ∧ 255 < 256 := by
  intro c h
  simp only [List.mem_cons, List.not_mem_nil, or_false] at h
  rcases h with rfl | rfl | rfl <;> exact ⟨by decide +kernel, rfl, nofun, nofun, by decide⟩

theorem witness_CommandTelegramActsAsItsRow :
    let t : Telegram := ⟨1, 63, 1, 1, commandPayload (.query 63 0 6143 0)⟩
    (Instr.query 63 0 6143 0).wellFormed = true ∧ (Instr.query 63 0 6143 0).commandSource = some 63
      ∧ part.serving = true ∧ goodTelegram t t.checkWord ∧ lowSix t.source = 63 ∧ 63 ≠ part.address ∧ lowSix t.hop ≠ 0
      ∧ lowSix t.dest = part.address ∧ lowSix t.kind = 1 := by unfold goodTelegram; decide +kernel

theorem witness_BlockRowsLeaveSettingsAlone :
    (Instr.pickRequest 5 4 70 1).atBlock = true ∧ Instr.pickRequest 5 4 70 1 ≠ .sessionTimerExpiry
      ∧ ∃ t, exec (.pickRequest 5 4 70 1) presented = .next t := ⟨rfl, nofun, _, rfl⟩

/-- A display changed at port 7, the same one, and one of an absent port. -/
theorem witness_EndOfEventQueuesDisplaysAndKeepsTheRest :
    let shown := plant.setMessage 7 .wait
    let away := shown.onPort 7 (fun p => { p with absent := true })
    (shown.port 7).display ≠ (plant.port 7).display ∧ (shown.port 7).absent = false
      ∧ (plant.port 7).display = (plant.port 7).display ∧ (away.port 7).absent = true := by decide +kernel

/-- The audit mode of carousel 7 has changed: the conditions hold with the timer stopped, or running, or fail. -/
theorem witness_IdleSweepTimerFollowsItsConditions :
    let s (delay : Nat) (timer : Option Nat) :=
      (part.setCarousel 7 { car with sweepDelay := delay, sweepTimer := timer }).setAuditRecord 7 { mode := .zoneCycle }
    7 < 8 ∧ (∀ t ∈ [s 3600 none, s 3600 (some 5), s 0 none], idleTouched part t 7 = true
        ∧ (t.auditRecord 7).mode = .zoneCycle ∧ (t.carousel 7).state = .standing ∧ (t.carousel 7).curtainBroken = false
        ∧ (t.carousel 7).stops = [] ∧ (t.port 7).work = .idle)
      ∧ ((s 3600 none).carousel 7).sweepDelay ≠ 0 ∧ ((s 3600 none).carousel 7).sweepTimer = none
      ∧ ((s 3600 (some 5)).carousel 7).sweepTimer = some 5 ∧ ¬((s 0 none).carousel 7).sweepDelay ≠ 0 := by decide +kernel

/-- The target's entry stands behind another's; none stands; no node is configured. -/
theorem witness_FieldQueueHoldsOneEntryPerTarget :
    let s : State := { plant with ring := { plant.ring with
      field := [⟨.port 0, .display {}, 11⟩, ⟨.lane 23, .laneOpen 23, 40⟩] } }
    s.fieldDest (.lane 23) = some 40
      ∧ s.ring.field = [⟨.port 0, .display {}, 11⟩] ++ ⟨.lane 23, .laneOpen 23, 40⟩ :: []
      ∧ (∀ y ∈ [(⟨.port 0, .display {}, 11⟩ : FieldEntry)], y.target ≠ .lane 23)
      ∧ s.fieldDest (.drive 0) = some 10 ∧ (∀ y ∈ s.ring.field, y.target ≠ .drive 0) ∧ s.fieldDest (.drive 7) = none := by
  decide +kernel

/-- A disabled class; an OVERFLOW that waits; 62 notices; 63 notices. -/
theorem witness_NoticesArePlacedOrCounted :
    let n : Notice := .laneOpenFailed 23 .ready
    let full := (nearlyFull 63).notify n
    (∀ s ∈ [nearlyFull 62, nearlyFull 63, full], noticesOk s.ring.notices ∧ s.command.enables.allows n.cls = true)
      ∧ ({ part with command := { enables := { lane := false } } } : State).command.enables.allows n.cls = false
      ∧ full.ring.notices = (nearlyFull 63).ring.notices ++ [⟨464, .overflow 1 .lane 8⟩]
      ∧ (∀ s ∈ [nearlyFull 62, nearlyFull 63], ∀ q ∈ s.ring.notices, q.notice.isOverflow = false)
      ∧ (nearlyFull 62).ring.notices.length ≤ 62 ∧ (nearlyFull 63).ring.notices.length = 63 := by
  unfold noticesOk; decide +kernel

/-! ## Witnesses: the line (07) -/

/-- A bad check word; a good telegram with hop 0; the unaddressed part. -/
theorem witness_SpoiledTelegramsAreCountedAndUnaddressedPartRepeats :
    let away : State := { traffic with address := 63 }
    traffic.resetHeld = false ∧ position1.payload.length ≤ 56 ∧ position1.checkWord ≠ position1.checkWord + 1
      ∧ goodTelegram curtain8 curtain8.checkWord ∧ lowSix curtain8.hop = 0 ∧ traffic.serving = true
      ∧ lowSix curtain8.source ≠ traffic.address
      ∧ away.resetHeld = false ∧ away.address = 63 ∧ goodTelegram position1 position1.checkWord ∧ lowSix position1.hop ≠ 0
      ∧ (Instr.ready 7).atBlock = true ∧ (Instr.identify 5).commandSource.isSome = true := by
  unfold goodTelegram; decide +kernel

/-- Returns to the drive, the port terminal and the conveyor configured, and one whose node is configured no more. -/
theorem witness_ReturnsAreRemovedAndHandedOn :
    let stop : Telegram := ⟨30, 17, 21, 0, []⟩
    let move : Telegram := ⟨50, 17, 20, 1, [1, 0, 1]⟩
    let display : Telegram := ⟨31, 17, 28, 22, List.replicate 9 0⟩
    let laneOpen : Telegram := ⟨40, 17, 34, 5, [23]⟩
    NodesDistinct traffic ∧ traffic.serving = true
      ∧ (∀ t ∈ [stop, move, display, laneOpen], goodTelegram t t.checkWord ∧ lowSix t.source = traffic.address)
      ∧ lowSix stop.kind = 21 ∧ (traffic.carousel 2).drive = some (lowSix stop.dest)
      ∧ lowSix display.kind = 28 ∧ (traffic.carousel 2).port = some (lowSix display.dest)
      ∧ lowSix laneOpen.kind = 34 ∧ traffic.lanes.conveyor = some (lowSix laneOpen.dest) ∧ laneOpen.payload = 23 :: []
      ∧ lowSix move.kind = 20 ∧ (∀ k : CarouselNo, (traffic.carousel k).drive ≠ some (lowSix move.dest)) := by
  refine ⟨traffic_nodesDistinct, ?_⟩
  unfold goodTelegram; decide +kernel

/-- One telegram for each disposition, from an owner and from a node not configured. -/
theorem witness_PassingTelegramsAreDisposedOf :
    let passed : Telegram := ⟨0, 30, 19, 1, []⟩
    let taken : Telegram := ⟨0, 51, 17, 9, [1]⟩
    let dropped : Telegram := ⟨5, 18, 21, 9, []⟩
    (∀ t ∈ [passed, position1, scan2, gate3, taken, dropped], traffic.classifies t ∧ goodTelegram t t.checkWord)
      ∧ traffic.entryFor passed = .pass ∧ lowSix passed.hop ≠ 0
      ∧ traffic.entryFor position1 = .observe ∧ traffic.entryFor scan2 = .take
      ∧ (∀ t ∈ [position1, scan2, gate3, taken, dropped], ∀ k : CarouselNo,
          ¬((lowSix t.kind = 20 ∨ lowSix t.kind = 21 ∨ lowSix t.kind = 22)
            ∧ (traffic.carousel k).drive = some (lowSix t.dest)))
      ∧ (∀ t ∈ [gate3, taken], traffic.lanes.conveyor ≠ some (lowSix t.source)
          ∧ ∀ k : CarouselNo, (traffic.carousel k).usesNode (lowSix t.source) = false)
      ∧ traffic.entryFor gate3 = .observe ∧ traffic.entryFor taken = .take ∧ traffic.entryFor dropped = .drop := by
  unfold State.classifies goodTelegram; decide +kernel

theorem witness_PassingTelegramsAreDisposedOf_owners :
    NodesDistinct traffic ∧ OwnerTakes traffic position1 (.position 2 5)
      ∧ OwnerTakes traffic scan2 (.scan 2 9 401170 20 24) :=
  ⟨traffic_nodesDistinct, .position 2 5 [] (by decide +kernel) (by decide +kernel) rfl,
    .scan 2 0 0 0 9 6 31 18 20 24 [] (by decide +kernel) (by decide +kernel) rfl⟩

/-- A JOG, a MOVE and a STOP to the drive of carousel 2, under PASS, OBSERVE, TAKE and DROP. -/
theorem witness_GuardedMotionTelegrams :
    let jog : Telegram := ⟨30, 18, 22, 1, [5, 0]⟩
    let under (d : Disposition) : State := { traffic with policy := { bankA := { bank with traffic := sparseSet .pass 22 d [] } } }
    NodesDistinct traffic ∧ (∀ t ∈ [jog, stop4], traffic.classifies t ∧ goodTelegram t t.checkWord ∧ traffic.guardedFor t 2)
      ∧ traffic.entryFor jog = .observe ∧ traffic.entryFor stop4 = .drop
      ∧ (under .pass).entryFor jog = .pass ∧ (under .take).entryFor jog = .take := by
  refine ⟨traffic_nodesDistinct, ?_⟩
  unfold State.classifies goodTelegram State.guardedFor; decide +kernel

/-- A SCAN addressed to the part; a broadcast of another kind, and one that sets week 53 of year 99. -/
theorem witness_BroadcastsAreForwarded :
    let own : Telegram := ⟨17, 31, 8, 1, []⟩
    let other : Telegram := ⟨63, 0, 1, 9, [5]⟩
    let calendar : Telegram := ⟨63, 0, 1, 9, [4, 53, 99]⟩
    traffic.serving = true ∧ traffic.command.intake = []
      ∧ (∀ t ∈ [own, other, calendar], goodTelegram t t.checkWord ∧ lowSix t.source ≠ traffic.address ∧ lowSix t.hop ≠ 0)
      ∧ lowSix own.dest = traffic.address ∧ lowSix own.kind ≠ 1
      ∧ lowSix other.dest = 63 ∧ other.payload.head? ≠ some 4
      ∧ lowSix calendar.dest = 63 ∧ lowSix calendar.kind = 1 ∧ calendar.payload = 4 :: 53 :: 99 :: [] := by
  unfold goodTelegram; decide +kernel

/-- Four replies stand; seven and eight commands wait; payloads that spell no command; a restart from node 5. -/
theorem witness_CommandsWaitOrAreRefused :
    let waiting (n : Nat) : State := { traffic with
      ring := { traffic.ring with replies := List.replicate 4 ⟨0, 1, .done, []⟩ }
      command := { intake := List.replicate n ⟨0, [1], false⟩ } }
    (∀ s ∈ [waiting 7, waiting 8], s.serving = true ∧ s.ring.replies.length = 4
        ∧ s.command.intake.head? = some ⟨0, [1], false⟩ ∧ lowSix command6.dest = s.address
        ∧ lowSix command6.source ≠ s.address)
      ∧ goodTelegram command6 command6.checkWord ∧ lowSix command6.hop ≠ 0 ∧ lowSix command6.kind = 1
      ∧ (waiting 7).command.intake.length < 8 ∧ (waiting 8).command.intake.length = 8
      ∧ part.accepts ∧ 5 ≠ 0 ∧ (∀ p ∈ [[], [0], [33], [2, 0], [17, 4, 1]], spellsNone 5 p = true) := by
  unfold State.accepts goodTelegram; decide +kernel

/-- A transmission ends with every queue empty, and with one telegram in each queue in its turn. -/
theorem witness_ArbiterChoosesFromThePointer :
    let at_ (p : Source) : State := { sending with ring := { sending.ring with
      pointer := p, replies := [⟨0, 1, .done, []⟩], notices := [⟨1, .started 1 true false⟩] } }
    (∀ s ∈ [part, at_ .forward, at_ .field, at_ .reply, at_ .notice], s.resetHeld = false
        ∧ s.ring.transmitter.isSome = true ∧ s.command.intake = [])
      ∧ part.ring.forward = [] ∧ part.ring.field = [] ∧ part.ring.replies = [] ∧ part.ring.notices = []
      ∧ (∀ p ∈ [Source.forward, .field, .reply, .notice], p.fromHere.head? = some p)
      ∧ (at_ .forward).ring.forward = position1 :: [] ∧ (at_ .field).ring.field.length = 1
      ∧ (at_ .reply).ring.replies.length = 1 ∧ (at_ .notice).ring.notices.length = 1
      ∧ sending.ring.replies = [] ∧ Source.reply.fromHere = [.reply, .notice] ++ .forward :: [.field] := by decide +kernel

/-! ## Witnesses: commands -/

/-- The last slot and the ends of the selectors; a tag that is recorded and one that is not. -/
theorem witness_ReadingCommandsAnswerFromTheRecords :
    let s := slot0 6143 (.stored (tyre 4 1293)) reserved9
    s.accepts ∧ 6143 ≤ 6143 ∧ 6143 < 6144 ∧ s.tagSlot 4 = some 9 ∧ s.tagSlot 5 = none ∧ s.articleList 7 = []
      ∧ s.findOrder 71 = none ∧ (s.carousel 8).carriers ≤ 16 ∧ 15 < (s.carousel 7).carriers
      ∧ (∀ x ∈ (s.carousel 7).stops, x.carrier ≠ 15) := by unfold State.accepts; decide +kernel

/-- An empty log, and one of three entries; the carousel and quota ranges' ends; a cursor kept and one that is not. -/
theorem witness_AuditIsSetAndItsLogRead :
    let cycling := part.setAuditRecord 7 { mode := .zoneCycle, cursor := some 0 }
    (∀ s ∈ [part, logged, cycling], s.accepts) ∧ part.audit.log = [] ∧ logged.audit.log.length = 3
      ∧ 7 < 8 ∧ 2 < 3 ∧ 4 < 5 ∧ 7 ≤ 7 ∧ 1 ≤ 4 ∧ 4 ≤ 4
      ∧ (cycling.auditRecord 7).mode = .zoneCycle ∧ (cycling.auditRecord 7).cursor = some 0
      ∧ (cycling.onAudit 7 (fun a => { a with enabled := 0x0001#16 })).zoneActive 7 0 = true
      ∧ (part.auditRecord 7).mode ≠ .zoneCycle ∧ 15 < 16 := by unfold State.accepts; decide +kernel

theorem witness_CalendarAndEnablesAreSet :
    plant.accepts ∧ plant.serving = true ∧ plant.command.intake = []
      ∧ (∀ x ∈ [(1, 0), (53, 99)], 1 ≤ x.1 ∧ x.1 ≤ 53 ∧ x.2 ≤ 99)
      ∧ (∀ x ∈ [(0, 0), (54, 99), (53, 100)], ¬(1 ≤ x.1 ∧ x.1 ≤ 53 ∧ x.2 ≤ 99)) := by
  unfold State.accepts; decide +kernel

/-- CONFIGURE-CAROUSEL: the nodes 13 to 15 are free and 10 is not. Carousel 7 is OFFLINE and empty; carousel 0 is not
OFFLINE; the tyre in slot 9 stands at carrier 1, position 1. SET-ZONE-MAP: 48 zones, the last three, and one more. -/
theorem witness_CarouselIsConfiguredMappedAndTimed :
    plant.accepts ∧ TablesOk plant
      ∧ (∀ x ∈ [13, 14, 62], 1 ≤ x ∧ x ≤ 62 ∧ x ≠ plant.address ∧ plant.lanes.conveyor ≠ some x
          ∧ ∀ j < 8, j ≠ 7 → (plant.carousel j).usesNode x = false)
      ∧ (plant.carousel 0).usesNode 10 = true ∧ 0 ≠ 7 ∧ 97 > 96
      ∧ (plant.carousel 7).state = .offline ∧ plant.stock.slots = [] ∧ (plant.carousel 0).state ≠ .offline
      ∧ (∀ x ∈ [(16, 1), (96, 8)], 16 ≤ x.1 ∧ x.1 ≤ 96 ∧ 1 ≤ x.2 ∧ x.2 ≤ 8)
      ∧ ((reserved9.onCarousel 0 (fun c => { c with state := .offline })).slot 9).content ≠ .empty
      ∧ 13 + [15, 0, 3].length ≤ (plant.carousel 0).carriers ∧ (∀ z ∈ [15, 0, 3], z ≤ 15)
      ∧ ¬14 + [15, 0, 3].length ≤ (plant.carousel 0).carriers ∧ (List.replicate 48 15).length ≤ 48 := by
  refine ⟨⟨rfl, rfl, by decide⟩, by constructor <;> decide +kernel, ?_⟩
  decide +kernel

theorem witness_CarouselServiceCommands :
    let at_ (x : CarouselState) (f : Carousel → Carousel := id) := carousel0 fun c => f { c with state := x }
    let faulty (cause : FaultCause) (since : Bool) := at_ .fault fun c => { c with
      cause := some cause, statusSinceFault := since }
    (∀ s ∈ [plant, at_ .offline, at_ .fault, at_ .yielded, at_ .moving], s.accepts)
      ∧ 7 < 8 ∧ ((at_ .offline).carousel 0).state = .offline
      ∧ ((at_ .offline).carousel 0).drive ≠ none ∧ ((at_ .offline).carousel 0).port ≠ none
      ∧ ((at_ .offline).carousel 0).gate ≠ none ∧ (plant.carousel 7).drive = none
      ∧ ((at_ .yielded).carousel 0).stops = [] ∧ ((at_ .yielded).port 0).work = .idle
      ∧ ((at_ .moving).carousel 0).state = .moving
      ∧ ((faulty .driveAbsent true).carousel 0).statusSinceFault = true
      ∧ ((faulty .driveAbsent true).carousel 0).lastFault = none
      ∧ ((faulty .driveAbsent false).carousel 0).cause = some .driveAbsent
      ∧ ((at_ .yielded fun c => { c with lastCommander := some 18 }).carousel 0).lastCommander = some 18 ∧ 18 ≠ plant.address
      ∧ ((at_ .yielded fun c => { c with lastCommander := some 1, lastFault := some 255 }).carousel 0).lastFault = some 255
      ∧ ((at_ .yielded).carousel 0).lastCommander = none := by unfold State.accepts; decide +kernel

/-- 15 of 16 carriers, backward; SVC low; a carousel that moves; a stop with a task to give back, STANDING and in FAULT. -/
theorem witness_JogAndReplanReachTheCarousel :
    let faulty := reserved9.onCarousel 0 (fun c => { c with state := .fault })
    (∀ s ∈ [plant, { plant with serviceHigh := false }, reserved9, faulty], s.accepts)
      ∧ 0 < 15 ∧ 15 < (plant.carousel 0).carriers ∧ (plant.carousel 0).bidirectional = true
      ∧ plant.serviceHigh = true ∧ (plant.carousel 0).state = .standing ∧ (plant.carousel 0).curtainBroken = false
      ∧ (plant.port 0).work = .idle ∧ ¬15 < 15 ∧ (faulty.carousel 0).state = .fault
      ∧ (reserved9.carousel 0).stops.map (fun x => x.tasks.length) = [1]
      ∧ ((carousel0 fun c => { c with state := .offline }).carousel 0).state = .offline := by
  unfold State.accepts; decide +kernel

theorem witness_PortSettingsAndModeAreTaken :
    let working (w : PortWork) := port0 fun p => { p with work := w }
    (∀ s ∈ [plant, working .calling, working (.placing 15)], s.accepts)
      ∧ (∀ t ∈ [10, 900], 10 ≤ t ∧ t ≤ 900) ∧ ¬10 ≤ 9 ∧ 2 < 3 ∧ 1 < 2
      ∧ ((working (.placing 15)).port 0).work = .placing 15 ∧ (plant.port 0).work = .idle ∧ (plant.port 0).autoCall = false
      ∧ (plant.carousel 0).port ≠ none ∧ (plant.port 0).absent = false ∧ (plant.carousel 7).port = none
      ∧ ((working .calling).port 0).work ≠ .idle := by unfold State.accepts; decide +kernel

/-- Records of each outcome: the last mapped slot of carousel 0, an unmapped one, a slot in work, a tag taken. -/
theorem witness_SlotRecordsAreLoaded :
    let s := slot0 8 (.inbound (tyre 5 1298)) reserved9
    s.accepts ∧ s.mapped 121 = true ∧ s.mapped 122 = false ∧ s.mapped 6144 = false
      ∧ (s.slot 8).content = .inbound (tyre 5 1298) ∧ (s.slot 9).content = .reserved (tyre 4 1293) 70 1
      ∧ s.tagElsewhere 4 121 = some 9 ∧ s.tagElsewhere 6 121 = none ∧ s.demandAllows 401170 = true
      ∧ [s.loadOutcome ⟨121, 1, 6, 401170, 53, 99⟩, s.loadOutcome ⟨122, 0, 0, 0, 0, 0⟩, s.loadOutcome ⟨9, 3, 0, 0, 0, 0⟩,
          s.loadOutcome ⟨121, 2, 4, 401170, 1, 0⟩] = [.done, .badArgument, .refusedState, .refusedState] := by
  unfold State.accepts; decide +kernel

/-- 2048 articles in the key demand leave no room for another. -/
def manyArticles : State :=
  { part with stock := { slots := (List.range 2048).map (fun i => (768 + i, ⟨.stored ⟨i + 1, i + 1, 0⟩, false⟩)) } }

theorem distinct_from (xs acc : List Nat) (h : (acc ++ xs).Nodup) :
    xs.foldl (fun acc x => if acc.contains x then acc else acc ++ [x]) acc = acc ++ xs := by
  induction xs generalizing acc with
  | nil => simp
  | cons x rest ih =>
    have hx : acc.contains x = false := by
      rw [List.nodup_append] at h
      simp only [List.contains_eq_mem, decide_eq_false_iff_not]
      intro hm
      exact h.2.2 x hm x (by simp) rfl
    simp only [List.foldl_cons, hx, Bool.false_eq_true, if_false]
    rw [ih (acc ++ [x]) (by simpa using h)]
    simp

theorem manyArticles_demand : manyArticles.demandArticles = (List.range 2048).map (fun i => i + 1) := by
  have hm : manyArticles.stock.slots.filterMap (fun e => e.2.content.goods.map Goods.article)
      = (List.range 2048).map (fun i => i + 1) := by
    simp [manyArticles, List.filterMap_map, Content.goods, Tyre.goods]
  have hn : (List.map (fun i => i + 1) (List.range 2048)).Nodup :=
    List.Nodup.map (fun a b h => by simpa using h) List.nodup_range
  rw [State.demandArticles, hm, distinct]
  simpa using distinct_from _ [] (by simpa using hn)

/-- The key demand of 2,048 articles allows each of them and no other (R6). -/
theorem manyArticles_full : manyArticles.demandAllows 2049 = false ∧ manyArticles.demandAllows 2048 = true := by
  simp only [State.demandAllows, State.keyDemand, manyArticles_demand]
  simp

theorem witness_HoldsAreReleased :
    let held := slot0 9 (.held (.loaded (tyre 4 1293)))
    let blocked := slot0 9 .blocked (slot0 8 (.stored (tyre 6 1293)))
    (∀ s ∈ [plant, held, blocked], s.accepts ∧ s.mapped 9 = true ∧ s.mapped 6144 = false)
      ∧ (held.slot 9).content = .held (.loaded (tyre 4 1293)) ∧ (Hold.loaded (tyre 4 1293)).tag = some 4
      ∧ (Hold.loaded (tyre 4 1293)).goods = some ⟨401170, 1293⟩ ∧ (plant.slot 9).content = .empty
      ∧ (blocked.slot 9).content = .blocked ∧ blocked.tagElsewhere 6 9 = some 8 ∧ blocked.tagElsewhere 7 9 = none
      ∧ blocked.demandAllows 1048575 = true ∧ 1048575 ≤ 1048575 ∧ ¬1048576 ≤ 1048575 := by
  unfold State.accepts; decide +kernel

/-- The session's table, its owner, an invalid and a valid shadow bank, each bank active. -/
theorem witness_BanksAreCopiedAndSwitched :
    let onB : State := { plant with policy := { bankB := bank, active := .b } }
    let ready : State := { plant with policy := { bankA := bank, bankB := bank } }
    (∀ s ∈ [plant, loading, onB, ready], s.accepts) ∧ loading.policy.session ≠ none ∧ plant.policy.session = none
      ∧ plant.policy.active = .a ∧ onB.policy.session = none ∧ onB.policy.active = .b
      ∧ plant.shadowBank.trafficValid = false ∧ ready.shadowBank = bank ∧ bank.trafficValid = true
      ∧ bank.articleValid = true ∧ bank.profileValid = true := by unfold State.accepts; decide +kernel

theorem witness_LoadSessionsOpenAndEnd :
    (∀ s ∈ [plant, loading], s.accepts) ∧ 2 < 3 ∧ 1 < 2 ∧ plant.policy.session = none
      ∧ loading.policy.session = some ⟨.traffic, .replace, 0, 0xFFFFFFFF#32, false, 0, 10000⟩ ∧ 5 ≠ 0
      ∧ (∃ e : BitVec 32, e ≠ 0xFFFFFFFF#32)
      ∧ (withSession ⟨.article, .merge, 63, 0#32, true, 65535, 0⟩).policy.session
        = some ⟨.article, .merge, 63, 0#32, true, 65535, 0⟩ := by
  unfold State.accepts; exact ⟨by decide +kernel, by decide, by decide, rfl, rfl, by decide, ⟨0#32, by decide⟩, rfl⟩

/-- A full article table for the failed mark. -/
def fullTable : Bank := { bank with articles := (List.range 1024).map (fun i => (i + 1, ⟨0, 0#16⟩)) }

theorem witness_LoadRecordsAreTaken :
    (∀ s ∈ [plant, loading], s.accepts) ∧ plant.policy.session = none
      ∧ loading.policy.session = some ⟨.traffic, .replace, 0, 0xFFFFFFFF#32, false, 0, 10000⟩ ∧ 5 ≠ 0
      ∧ readRecords .traffic 5 (List.replicate 10 0) ≠ none ∧ 4 < 5 ∧ readRecords .traffic 4 (List.replicate 7 0) = none
      ∧ readRecords .traffic 1 [63, 3] = some [([63, 3], .traffic 63 .drop)] ∧ readRecords .traffic 1 [64, 0] = none
      ∧ sparseFind 1025 fullTable.articles = none ∧ 1024 ≤ fullTable.articles.length
      ∧ sparseFind 1024 fullTable.articles ≠ none ∧ bank.articles.length < 1024 := by
  unfold State.accepts; decide +kernel

/-- An order's fields at the ends of their ranges; each way the Lane Unit answers; a full order table. -/
theorem witness_OrdersAreAcceptedOrRefused :
    let full := withOrders ((List.range 64).map (fun i => { order70 .active [] with id := i + 1 }))
    let lines : List LineArg := [⟨401170, 8, 2⟩, ⟨401170, 8, 0⟩]
    (∀ s ∈ [plant, reserved9, full], s.accepts)
      ∧ (∀ l ∈ lines, 1 ≤ l.quantity ∧ l.quantity ≤ 8 ∧ 1 ≤ l.article ∧ l.article ≤ 1048575 ∧ l.rule ≤ 2)
      ∧ 65535 ≠ 0 ∧ 3 ≤ 3 ∧ 1 ≤ lines.length ∧ lines.length ≤ 8 ∧ (lines.map LineArg.quantity).sum ≤ 16
      ∧ (∀ l ∈ lines, plant.article l.article ≠ none) ∧ plant.article 401171 = none
      ∧ plant.findOrder 65535 = none ∧ reserved9.findOrder 70 ≠ none
      ∧ 64 ≤ full.planner.orders.length ∧ full.findOrder 65535 = none ∧ plant.planner.orders.length < 64
      ∧ (plant.bindOrder 65535 0 16 true).2 = .lane 0
      ∧ ((lane9 { state := .filling, chain := 255, bound := [1], quantity := 1 }).bindOrder 65535 255 16 true).2
        = .refused .tooLarge
      ∧ (({ plant with lanes := { lanes := (List.range 24).map (fun j => (j, { state := .ready })) } } : State).bindOrder
          65535 0 16 true).2 = .noLane := by unfold State.accepts; decide +kernel

/-- Lanes that are free, or none; an open chain in lane 9 with room, at 16 tyres and at 8 orders; and waiting. -/
theorem witness_OrdersAreBoundToLanes :
    let noneFree : State := { plant with lanes := { lanes := (List.range 24).map (fun j => (j, { state := .ready })) } }
    let chained (n q : Nat) := lane9 { state := .filling, chain := 255, bound := List.replicate n 1, quantity := q }
    let waiting (n q : Nat) : State := { noneFree with lanes := { noneFree.lanes with
      waiting := [⟨255, false, List.replicate n 1, q⟩] } }
    plant.freeLane = some 0 ∧ noneFree.freeLane = none ∧ 255 ≠ 0
      ∧ (chained 7 15).openChainLane 255 = some 9 ∧ 16 < ((chained 7 15).lane 9).quantity + 2
      ∧ ((chained 8 15).lane 9).quantity + 1 ≤ 16 ∧ 8 ≤ ((chained 8 15).lane 9).bound.length
      ∧ ((chained 7 15).lane 9).bound.length < 8
      ∧ (waiting 7 15).openChainLane 255 = none ∧ (waiting 7 15).openWaitingChain 255 = some ⟨255, false, List.replicate 7 1, 15⟩
      ∧ (waiting 8 15).openWaitingChain 255 = some ⟨255, false, List.replicate 8 1, 15⟩
      ∧ plant.openChainLane 255 = none ∧ plant.openWaitingChain 255 = none ∧ noneFree.openChainLane 255 = none
      ∧ noneFree.openWaitingChain 255 = none := by decide +kernel

theorem witness_OrdersAreClosed :
    (∀ s ∈ [plant, reserved9, withOrders [order70 .complete []]], s.accepts) ∧ plant.findOrder 70 = none
      ∧ reserved9.findOrder 70 = some (order70 .active [line70 [⟨9, 1293⟩]]) ∧ 63 ≠ 0
      ∧ 63 ≠ (order70 .active [line70 [⟨9, 1293⟩]]).source
      ∧ (withOrders [order70 .complete []]).findOrder 70 = some (order70 .complete [])
      ∧ (order70 .active [line70 [⟨9, 1293⟩]]).state = .active := by unfold State.accepts; decide +kernel

theorem witness_LaneSettingsForeignCountsAndReadiness :
    let opening := plant.setLane 23 { state := .opening }
    let fit := plant.setLane 23 { state := .filling, closed := true }
    (∀ s ∈ [plant, opening, fit], s.accepts)
      ∧ (∀ x ∈ [2, 62], 1 ≤ x ∧ x ≤ 62 ∧ x ≠ plant.address ∧ ∀ k < 8, (plant.carousel k).usesNode x = false)
      ∧ ¬63 ≤ 62 ∧ (∀ j < 24, (plant.lane j).state ≠ .opening) ∧ (opening.lane 23).state = .opening ∧ 23 < 24 ∧ 23 ≤ 23
      ∧ (fit.lane 23).state = .filling ∧ (fit.lane 23).closed = true ∧ (fit.lane 23).bound = []
      ∧ (fit.lane 23).expected = [] ∧ (fit.lane 23).foreign = 0
      ∧ ((plant.setLane 23 { state := .ready, foreign := 1 }).lane 23).state = .ready ∧ ¬(1 = 0)
      ∧ (plant.lane 23).state = .free := by unfold State.accepts; decide +kernel

theorem witness_LanesAreReleased :
    let s := (reserved9.setLane 23 { state := .filling, bound := [70, 71] })
    let ready := plant.setLane 23 { state := .ready }
    (∀ t ∈ [plant, s, ready], t.accepts ∧ t.lanes.conveyor ≠ none) ∧ 23 < 24 ∧ 23 ≤ 23 ∧ (plant.lane 23).state = .free
      ∧ (ready.lane 23).state = .ready ∧ (s.lane 23).state = .filling
      ∧ s.findOrder 70 = some (order70 .active [line70 [⟨9, 1293⟩]]) ∧ s.findOrder 71 = none := by
  unfold State.accepts; decide +kernel

theorem witness_RestartsEndTheWork :
    reserved9.accepts ∧ (reserved9.slot 9).content = .reserved (tyre 4 1293) 70 1 ∧ 7 < 8
      ∧ ((audited .empty).auditRecord 4).mode = .zoneCycle ∧ (audited .empty).accepts
      ∧ (reserved9.auditRecord 4).mode ≠ .zoneCycle := by unfold State.accepts; decide +kernel

/-! ## Witnesses: motion, ports and put-aways -/

/-- Carousel 7 in a state, at carrier 15 of 16, with a move. -/
def at7 (x : CarouselState) (m : Option Move := none) (f : Carousel → Carousel := id) : State :=
  plant.setCarousel 7 (f { car with drive := some 20, port := some 21, gate := some 22, atPort := 15, state := x, move := m })

theorem witness_PositionsAreTaken :
    let moving := at7 .moving (some ⟨.sweep, 15, some ⟨.forward, 16⟩⟩) fun c => { c with positionsSeen := 2 }
    let served := (at7 .standing).setPort 7 { work := .placing 15 }
    (∀ s ∈ [moving, at7 .fault, served], s.serving = true) ∧ (moving.carousel 7).carriers ≤ 16 ∧ 15 < (moving.carousel 7).carriers
      ∧ (moving.carousel 7).state = .moving ∧ 2 ≤ (moving.carousel 7).positionsSeen
      ∧ (at7 .fault |>.carousel 7).state = .fault ∧ (served.port 7).work = .placing 15
      ∧ (served.carousel 7).atPort ≠ 14 ∧ 14 ≠ 15 ∧ (served.carousel 7).atPort = 15 ∧ (plant.port 7).work = .idle := by
  decide +kernel

theorem witness_ArrivalsCompleteMoves :
    let moving (p : Purpose) := at7 .moving (some ⟨p, 0, some ⟨.forward, 1⟩⟩)
    (∀ p ∈ [Purpose.call, .storeCall, .sweep, .jog], ((moving p).carousel 7).move = some ⟨p, 0, some ⟨.forward, 1⟩⟩
        ∧ ((moving p).carousel 7).state = .moving ∧ (moving p).serving = true)
      ∧ ((moving .call).carousel 7).carriers ≤ 16 ∧ 15 < ((moving .call).carousel 7).carriers ∧ 0 ≠ 15
      ∧ ((at7 .standing).carousel 7).state = .standing ∧ ((at7 .yielded).carousel 7).state = .yielded := by decide +kernel

theorem witness_FaultsAndYields :
    let called := at7 .interrupted (some ⟨.storeCall, 0, none⟩)
    let timed := at7 .moving (some ⟨.jog, 0, some ⟨.forward, 1⟩⟩) fun c => { c with moveTimer := some 0 }
    (∀ s ∈ [called, timed, at7 .offline, at7 .yielded, at7 .fault, at7 .standing], s.serving = true)
      ∧ 63 ≠ plant.address ∧ some 1 = some plant.address ∧ (some 255 : Option Nat) ≠ none
      ∧ (timed.carousel 7).moveTimer = some 0 ∧ (called.carousel 7).moveTimer = none
      ∧ (called.carousel 7).state = .interrupted ∧ (called.carousel 7).move = some ⟨.storeCall, 0, none⟩
      ∧ (timed.carousel 7).move = some ⟨.jog, 0, some ⟨.forward, 1⟩⟩ ∧ ((at7 .standing).carousel 7).move = none
      ∧ (timed.carousel 7).state = .moving ∧ ((at7 .fault).carousel 7).state = .fault
      ∧ ((at7 .offline).carousel 7).state = .offline ∧ ((at7 .yielded).carousel 7).state = .yielded := by decide +kernel

/-- Each state a CURTAIN finds; dwells with no step and with one step left; a sweep and a call under way. -/
theorem witness_CurtainStopsAndRequestsStartMoves :
    let m (p : Purpose) (t : Nat) : Move := ⟨p, t, some ⟨.forward, 3⟩⟩
    let dwelling (t : Nat) := at7 .interrupted (some (m .call t)) fun c => { c with dwellTimer := some 0 }
    let broken := at7 .standing none fun c => { c with curtainBroken := true }
    let idle := at7 .standing none fun c => { c with sweepTimer := some 0 }
    (∀ s ∈ [dwelling 15, dwelling 0, broken, idle, at7 .moving (some (m .sweep 15)), at7 .curtainWait (some (m .sweep 15))],
        s.serving = true)
      ∧ (broken.carousel 7).curtainBroken = true ∧ (idle.carousel 7).curtainBroken ≠ true
      ∧ ((at7 .moving (some (m .sweep 15))).carousel 7).state = .moving
      ∧ ((dwelling 0).carousel 7).state = .interrupted ∧ ((dwelling 0).carousel 7).dwellTimer ≠ none
      ∧ ((dwelling 0).carousel 7).move = some (m .call 0) ∧ ((dwelling 15).carousel 7).travel 15 = ⟨.forward, 0⟩
      ∧ ((dwelling 0).carousel 7).travel 0 = ⟨.forward, 1⟩ ∧ (idle.carousel 7).dwellTimer = none
      ∧ (idle.carousel 7).sweepTimer ≠ none ∧ (broken.carousel 7).sweepTimer = none
      ∧ (idle.carousel 7).state = .standing ∧ (broken.carousel 7).state = .standing
      ∧ ((at7 .curtainWait (some (m .sweep 15))).carousel 7).state = .curtainWait
      ∧ ((at7 .moving (some (m .call 0))).carousel 7).move = some (m .call 0)
      ∧ ((at7 .fault).carousel 7).state = .fault := by decide +kernel

/-- A stop bypassed up to the limit behind one that is not; no such stop, with the nearest in the middle; an empty list
under both reports. -/
theorem witness_CallsAreMadeForTheChosenStop :
    let wants : Port := { mode := .pick }
    let empty (r : UnderrunReport) (since : Bool) := (at7 .standing).setPort 7
      { wants with underrunReport := r, workSinceReport := since }
    let full (at_ : Nat) := ((at7 .standing).setPort 7 wants).onCarousel 7 fun c => { c with
      atPort := at_, stops := [⟨3, [task70 0], 1, 0⟩, ⟨15, [task70 0], 2, 0⟩, ⟨9, [task70 0], 3, 0⟩] }
    let due : Carousel := { car with stops := [⟨3, [task70 0], 1, 5⟩, ⟨15, [task70 0], 2, 6⟩, ⟨9, [task70 0], 3, 7⟩] }
    (∀ s ∈ [empty .every true, full 15, full 0], s.serving = true ∧ (s.port 7).work = .idle ∧ (s.port 7).mode = .pick
        ∧ (s.carousel 7).state = .standing)
      ∧ ((empty .every true).carousel 7).stops = [] ∧ ((empty .every true).port 7).underrunReport = .every
      ∧ ((empty .firstAfterWork false).port 7).underrunReport ≠ .every
      ∧ ((empty .firstAfterWork false).port 7).workSinceReport = false
      ∧ ((full 15).carousel 7).chooseStop = some ⟨15, [task70 0], 2, 0⟩ ∧ ((full 15).carousel 7).atPort = 15
      ∧ ((full 0).carousel 7).chooseStop = some ⟨15, [task70 0], 2, 0⟩ ∧ ((full 0).carousel 7).atPort ≠ 15
      ∧ ((at7 .fault).carousel 7).state = .fault ∧ ((at7 .standing).port 7).mode = .closed
      ∧ due.bypassLimit = 6 ∧ 6 ≤ 6 ∧ ¬6 ≤ 5 ∧ due.chooseStop = some ⟨15, [task70 0], 2, 6⟩
      ∧ car.bidirectional = true ∧ ({ car with bidirectional := false } : Carousel).bidirectional = false
      ∧ (∀ z ∈ ((full 0).carousel 7).stops, ¬6 ≤ z.bypass)
      ∧ ((full 0).carousel 7).travel 15 = ⟨.backward, 1⟩ ∧ ((full 0).carousel 7).travel 3 = ⟨.forward, 3⟩
      ∧ ((full 0).carousel 7).travel 9 = ⟨.backward, 7⟩ := by decide +kernel

theorem witness_PresentationsEnd :
    let called := (slot0 792 (.inbound (tyre 9 1291)) plant1).setPort 1
      { mode := .store, work := .calling, putaway := some ⟨tyre 9 1291, 792⟩ }
    let picking := plant.setPort 0 { mode := .pick, work := .calling }
    (∀ s ∈ [presented, placing, called, picking, plant], s.serving = true)
      ∧ (presented.port 5).work = .presenting ⟨14, [task70 2], 502, 1, []⟩ ∧ (presented.port 5).timer ≠ none
      ∧ (presented.port 5).absent = false ∧ (placing.port 1).work = .placing 3 ∧ (placing.port 1).timer ≠ none
      ∧ (placing.port 1).putaway = some ⟨tyre 9 1291, 792⟩ ∧ (placing.slot 792).content = .inbound (tyre 9 1291)
      ∧ (plant.port 0).work = .idle ∧ (plant.port 0).timer = none ∧ (plant.port 0).putaway = none
      ∧ ((port0 fun p => { p with absent := true }).port 0).absent = true
      ∧ (called.port 1).work = .calling ∧ (called.port 1).mode = .store ∧ (called.port 1).putaway = some ⟨tyre 9 1291, 792⟩
      ∧ slotCarrier 792 = 3 ∧ slotCarrier 792 ≠ 4 ∧ (picking.port 0).work = .calling ∧ (picking.port 0).mode = .pick
      ∧ ((placing.setSlot 792 ⟨.held .vacated, false⟩).slot 792).content = .held .vacated := by decide +kernel

/-- Creation sequences across the wrap: 65,535 is earlier than 0, and 32,767 apart is the last that counts. -/
theorem witness_PortsReturnToIdle :
    (plant.port 0).pendingMode = none
      ∧ ((port0 fun p => { p with pendingMode := some .pick }).port 0).pendingMode = some (plant.port 0).mode
      ∧ ((port0 fun p => { p with pendingMode := some .store }).port 0).pendingMode = some .store ∧ .store ≠ (plant.port 0).mode
      ∧ [task70 1] ≠ [] ∧ (plant.carousel 0).stops = [] ∧ (reserved9.carousel 0).stops = [⟨1, [task70 1], 7, 0⟩]
      ∧ (∀ z ∈ (reserved9.carousel 0).stops, z.carrier ≠ 2)
      ∧ (reserved9.carousel 0).stops.find? (fun z => z.carrier = 1) = some ⟨1, [task70 1], 7, 0⟩
      ∧ earlier 65535 0 = true ∧ earlier 0 32767 = true ∧ earlier 0 32768 = false ∧ earlier 5 5 = false
      ∧ 65535 ≤ 65535 := by decide +kernel

theorem witness_ScansAreTaken :
    let here (i : Nat) := presented.tagSlot i
    let storing := plant1
    (∀ s ∈ [plant, presented, storing, placing], s.serving = true) ∧ 4294967295 ≠ 0
      ∧ (plant.port 7).work = .idle ∧ (plant.port 7).mode = .closed ∧ (plant.port 0).mode = .pick
      ∧ (placing.port 1).mode = .store ∧ (placing.port 1).work = .placing 3
      ∧ (storing.port 1).work = .idle ∧ (storing.port 1).mode = .store
      ∧ ((storing.take (.scan 1 9 401170 20 24)).putawayChoice 1 9 401170 20 24).2 = .chosen 792 1291
      ∧ ((storing.take (.scan 1 9 401170 0 24)).putawayChoice 1 9 401170 0 24).2 = .refused .badDate
      ∧ (presented.port 5).work = .presenting ⟨14, [task70 2], 502, 1, []⟩
      ∧ here 99 = none ∧ here 4 = some 3954 ∧ 3954 / 768 = 5 ∧ 3954 % 768 / 8 = 14 ∧ 3954 % 8 = 2
      ∧ here 11 = some 3955 ∧ 3955 / 768 = 5 ∧ 3955 % 768 / 8 = 14 ∧ 3955 % 8 = 3
      ∧ (presented.slot 3955).content = .stored (tyre 11 1310) ∧ presented.article 401170 = some ⟨3, 0xFFFF#16⟩
      ∧ (presented.profile 3).substitute = true ∧ (presented.findLine 70 1).map Line.article = some 401170
      ∧ ((presented.setSlot 3955 ⟨.held (.missing (tyre 11 1310)), false⟩).slot 3955).content
        = .held (.missing (tyre 11 1310))
      ∧ ((presented.setSlot 3955 ⟨.stored ⟨11, 7, 0⟩, false⟩).article 7) = none := by decide +kernel

theorem witness_PutawayIsChosenAndCalled :
    let ahead (p : Profile) : State := { plant1 with policy := { bankA := { bank with profiles := sparseSet {} 3 p [] } } }
    let full := plant1.setCarousel 1 { (plant1.carousel 1) with zones := [(0, 15)] }
    let away (x : CarouselState) := placing.onCarousel 1 fun c => { c with state := x, atPort := 4 }
    (∀ x ∈ [(1, 0), (53, 99)], 1 ≤ x.1 ∧ x.1 ≤ 53 ∧ x.2 ≤ 99) ∧ ¬1 ≤ 0 ∧ ¬54 ≤ 53 ∧ ¬100 ≤ 99
      ∧ plant1.article 7 = none ∧ plant1.article 401170 = some ⟨3, 0xFFFF#16⟩ ∧ plant1.tagSlot 1 ≠ none ∧ plant1.tagSlot 9 = none
      ∧ plant1.stock.calendar.isSet = true ∧ 4240 < (1338 + (5300 - 2397 % 5300)) % 5300
      ∧ ¬4240 < (1338 + (5300 - 2398 % 5300)) % 5300 ∧ ((ahead { refuseAhead := true }).profile 3).refuseAhead = true
      ∧ plant1.demandAllows 401170 = true
      ∧ (plant1.carousel 1).carriers ≤ 96 ∧ (plant1.carousel 1).positions ≤ 8
      ∧ (plant1.profile 3).strategy = .grouped ∧ ((ahead {}).profile 3).strategy = .nearest
      ∧ (plant1.slot 792).content = .empty ∧ (full.carousel 1).zone 0 = 15 ∧ (0x7FFF#16).getLsbD 15 = false
      ∧ (placing.port 1).putaway = some ⟨tyre 9 1291, 792⟩ ∧ 792 % 768 / 8 = (placing.carousel 1).atPort
      ∧ (placing.carousel 1).state = .standing ∧ ((away .standing).carousel 1).atPort ≠ 792 % 768 / 8
      ∧ ((away .offline).carousel 1).state = .offline ∧ ((away .offline).slot 792).content = .inbound (tyre 9 1291)
      ∧ ((away .offline).port 1).putaway = some ⟨tyre 9 1291, 792⟩ := by decide +kernel

theorem witness_PlacementsComplete :
    let gone := slot0 792 (.held (.unexpected 9999)) placing
    let calling := gone.onPort 1 fun p => { p with work := .calling }
    let refusing : State := { gone with policy := {} }
    (∀ s ∈ [placing, gone, calling, refusing, plant], s.serving = true) ∧ (plant.port 0).work = .idle
      ∧ (placing.carousel 1).positions ≤ 4 ∧ 3 < (placing.carousel 1).positions ∧ (placing.port 1).work = .placing 3
      ∧ (placing.port 1).putaway = some ⟨tyre 9 1291, 792⟩ ∧ (placing.slot 792).content = .inbound (tyre 9 1291)
      ∧ 1 * 768 + 3 * 8 + 0 = 792 ∧ 1 * 768 + 3 * 8 + 3 ≠ 792 ∧ (placing.slot 795).content = .empty
      ∧ (placing.slot 794).content = .stored (tyre 3 1291) ∧ (gone.slot 792).content = .held (.unexpected 9999)
      ∧ (gone.putawayChoice 1 9 401170 20 24).2 = .chosen 793 1291 ∧ 793 % 768 / 8 = 3
      ∧ (calling.port 1).work = .calling ∧ (refusing.putawayChoice 1 9 401170 20 24).2 = .refused .unknownArticle
      ∧ ((tyre 9 1291).ordinal % 53 + 1, (tyre 9 1291).ordinal / 53) = (20, 24) := by decide +kernel

/-! ## Witnesses: planning, lanes and audit -/

theorem witness_ReservationsAreReleasedAndPicked :
    (∀ s ∈ [reserved9, presented], s.serving = true) ∧ (reserved9.slot 9).content = .reserved (tyre 4 1293) 70 1
      ∧ (reserved9.slot 8).content = .empty ∧ presented.tagSlot 4 = some 3954
      ∧ (presented.slot 3954).content = .reserved (tyre 4 1293) 70 1 ∧ presented.tagSlot 99 = none
      ∧ (presented.slot 3952).content = .stored (tyre 10 1296)
      ∧ (presented.findLine 70 1).map (fun l => (l.article, l.rule, l.captured, l.extremes))
        = some (401170, .matching, some ⟨26, 78, false⟩, some (1274, 1274))
      ∧ presented.ageTest 78 1296 = true
      ∧ (∀ a ∈ [1296, 1291, 1294, 1274, 1274], ∀ b ∈ [1296, 1291, 1294, 1274, 1274], a ≤ b + 26)
      ∧ ¬(1310 ≤ 1274 + 26) := by decide +kernel

theorem witness_PicksReachLineLaneAndPort :
    let done (members : List Member) : Line := { line70 members with quantity := members.length }
    let two := presented.onPort 5 fun p => { p with work := .presenting ⟨14, [task70 2, task70 0], 502, 1, []⟩ }
    (presented.findOrder 70).map Order.lane = some (some 9) ∧ plant.findOrder 70 = none
      ∧ (done []).state = .done ∧ (done [⟨9, 1293⟩]).state = .reserved
      ∧ (withOrders [order70 .active [done []]]).findLine 70 1 = some (done [])
      ∧ (withOrders [order70 .active [done []]]).findOrder 70 = some (order70 .active [done []])
      ∧ (order70 .active [done []]).unsettled = 0 ∧ (order70 .queued []).state ≠ .active
      ∧ 3954 / 768 = 5 ∧ 3954 % 768 / 8 = 14 ∧ 3954 % 8 = 2
      ∧ (presented.port 5).work = .presenting ⟨14, [task70 2], 502, 1, []⟩
      ∧ (two.port 5).work = .presenting ⟨14, [task70 2, task70 0], 502, 1, []⟩
      ∧ [task70 2, task70 0].find? (fun t => t.position = 2) = some (task70 2) ∧ (reserved9.port 0).work = .idle := by
  decide +kernel

/-- A line of each rule; the worked example's candidates with a set, per carousel and not, and a window of 0 with none. -/
theorem witness_SetsAreSelected :
    let cands := sixTyres.candidates 401170 0 none
    0 < 4 ∧ (line70 []).rule = .matching ∧ ({ line70 [] with rule := .any } : Line).rule = .any
      ∧ cands.map Member.ordinal = [1258, 1274, 1291, 1293, 1294, 1326]
      ∧ cands = cands.take 1 ++ (cands.drop 1).take 4 ++ cands.drop 5
      ∧ (∀ x ∈ ((cands.drop 1).take 4).map Member.ordinal, ∀ y ∈ ((cands.drop 1).take 4).map Member.ordinal, x ≤ y + 20)
      ∧ ¬(1293 ≤ 1258 + 26) ∧ (cands.filter (fun m => m.slot / 768 = 5)).map Member.ordinal = [1274, 1293, 1326]
      ∧ (cands.filter (fun m => m.slot / 768 = 2)).map Member.ordinal = [1258, 1291, 1294]
      ∧ ({ line70 [] with rule := .matchingOrOldest } : Line).fellBack = false ∧ cands ≠ [] := by decide +kernel

theorem witness_CandidatesAreEligible : TablesOk sixTyres ∧ ⟨3842, 1326⟩ ∈ sixTyres.articleList 401170
    ∧ (sixTyres.carousel 5).state = .standing := ⟨by constructor <;> decide +kernel, by decide +kernel, by decide +kernel⟩

theorem witness_PlanningStepsAreTaken :
    let two := [{ line70 [] with captured := none }, { line70 [] with number := 2, captured := none }]
    let s := withOrders [order70 .planning two] sixTyres
    let later := withOrders [order70 .active [{ line70 [] with mark := some ⟨some 5⟩ }]] sixTyres
    (∀ t ∈ [s, later, withOrders [order70 .complete [line70 []]]], t.serving = true)
      ∧ s.findOrder 70 = some (order70 .planning two) ∧ (order70 .planning two).findLine 1 = some two[0]
      ∧ (order70 .planning two).planned = 0 ∧ 0 < 1 ∧ 1 = 0 + 1 ∧ 1 < two.length ∧ 2 ≤ two.length
      ∧ later.findOrder 70 = some (order70 .active [{ line70 [] with mark := some ⟨some 5⟩ }])
      ∧ 1 ≤ (order70 .active [line70 []]).planned ∧ s.article 401170 ≠ none ∧ s.article 402210 = none
      ∧ later.findLine 70 1 = some { line70 [] with mark := some ⟨some 5⟩ } ∧ (line70 []).captured = some ⟨26, 78, false⟩
      ∧ (line70 []).remainder ≠ 0 ∧ (line70 (List.replicate 4 ⟨9, 0⟩)).remainder = 0
      ∧ (order70 .active []).shortage = .hold 240 ∧ ({ order70 .active [] with shortage := .shipShort } : Order).shortage = .shipShort
      ∧ (sixTyres.slot 3842).content = .stored (tyre 6 1326) ∧ (sixTyres.slot 3843).content = .empty := by decide +kernel

theorem witness_ReplansWakeUpsAndWaits :
    let l : Line := { line70 [⟨3842, 1326⟩] with mark := some ⟨none⟩, wait := some 0 }
    let s := withOrders [order70 .active [l]] sixTyres
    let queue := [{ order70 .queued [l] with id := 1, priority := 0 }, { order70 .queued [l] with id := 2, priority := 3 },
      { order70 .queued [l] with id := 3, priority := 3 }]
    s.serving = true ∧ s.findOrder 70 = some (order70 .active [l]) ∧ (order70 .active [l]).findLine 1 = some l
      ∧ l.mark ≠ none ∧ l.state = .waiting ∧ l.rule = .matching ∧ l.wait ≠ none ∧ s.findOrder 71 = none
      ∧ ({ l with rule := .any } : Line).rule = .any ∧ (line70 []).wait = none
      ∧ (∃ o ∈ (withOrders [order70 .planning [l]]).planner.orders, o.state = .planning)
      ∧ (∀ o ∈ queue, o.state ≠ .planning) ∧ queue = queue.take 1 ++ queue[1] :: queue.drop 2 ∧ queue[1].state = .queued
      ∧ (∀ x ∈ queue.take 1, 3 - queue[1].priority < 3 - x.priority)
      ∧ (∀ x ∈ queue.drop 2, 3 - queue[1].priority ≤ 3 - x.priority) := by decide +kernel

theorem witness_LaneEventsAreTaken :
    let a3 (x : EntryState) (t : Option Nat) : Entry := ⟨3, 81, x, t, 25000⟩
    let s := chain12 0 (a3 .inTransit (some 0))
    let lost := chain12 0 (a3 .lost none)
    let opening := (chain12 0 (a3 .late none)).onLane 9 fun l => { l with state := .opening }
    let other := s.setLane 23 { expected := [⟨7, 90, .inTransit, some 1000, 0⟩] }
    (∀ t ∈ [s, lost, opening, other], t.serving = true) ∧ 23 < 24 ∧ 23 ≤ 23
      ∧ (s.lane 9).expected = (s.lane 9).expected.take 2 ++ a3 .inTransit (some 0) :: (s.lane 9).expected.drop 3
      ∧ (∀ y ∈ (s.lane 9).expected.take 2, y.tag ≠ 3) ∧ (lost.lane 9).expected[2]? = some (a3 .lost none)
      ∧ (s.lane 9).expected[0]? = some ⟨1, 81, .arrived, none, 0⟩ ∧ (s.lane 9).expected[2]? = some (a3 .inTransit (some 0))
      ∧ (∀ x ∈ (s.lane 9).expected, x.tag ≠ 7) ∧ (other.lane 23).expected = [⟨7, 90, .inTransit, some 1000, 0⟩]
      ∧ (∀ h < 23, ∀ x ∈ (other.lane h).expected, x.tag ≠ 7) ∧ (opening.lane 9).state = .opening
      ∧ (opening.lane 9).closed = true ∧ opening.laneFit 9 = true ∧ (s.lane 9).state ≠ .opening
      ∧ (opening.onLane 9 fun l => { l with foreign := 1 }).laneFit 9 = false := by decide +kernel

theorem witness_GateReportsAreJudged :
    let s := audited .empty
    let certified := s.onAudit 4 fun a => { a with streaks := (List.range 6).map fun x => (x + 30, 2) }
    (∀ t ∈ [s, certified], t.serving = true) ∧ 47 < (s.carousel 4).carriers ∧ ¬48 < (s.carousel 4).carriers
      ∧ (s.carousel 4).state ≠ .offline ∧ (s.auditRecord 4).mode = .zoneCycle
      ∧ (s.auditRecord 4).cursor = some ((s.carousel 4).zone 35) ∧ (s.port 4).work = .idle
      ∧ ((s.onAudit 4 fun a => { a with mode := .continuous }).auditRecord 4).enabled.getLsbD 3 = true
      ∧ (∀ x < 48, (certified.carousel 4).zone x = 3 → (certified.auditRecord 4).quota ≤ (certified.auditRecord 4).streak x)
      ∧ (s.carousel 4).zone 31 = 3 ∧ (s.auditRecord 4).streak 31 < (s.auditRecord 4).quota
      ∧ (s.auditRecord 5).mode ≠ .zoneCycle ∧ s.zoneActive 4 3 = true ∧ s.zoneActive 4 15 = false := by decide +kernel

/-- A pair, a tag seen twice, a fresh slot; and one observation for each verdict. -/
theorem witness_PositionsAreCompared :
    let s := audited (.stored ⟨21, 500210, 1301⟩)
    let held := s.setSlot 3321 ⟨.held .vacated, false⟩
    s.swapPartner [21, 20, 22, 0] 4 31 4 0 = some 1 ∧ s.swapPartner [21, 20, 22, 0] 4 31 4 2 = none ∧ 0 < 1 ∧ 0 ≤ 1
      ∧ [5, 5].getD 0 0 = [5, 5].getD 1 0 ∧ (s.slot 3320).fresh = false
      ∧ s.verdict 3320 (some 20) = .agreement ∧ s.verdict 3320 none = .missing ∧ s.verdict 3323 (some 99) = .unexpected
      ∧ s.verdict 3323 (some 20) = .foreign 3320 ∧ s.tagElsewhere 20 3323 = some 3320 ∧ s.tagElsewhere 99 3323 = none
      ∧ (held.slot 3321).content = .held .vacated ∧ held.verdict 3321 none = .agreement
      ∧ held.verdict 3321 (some 20) = .foreign 3320 := by decide +kernel

theorem witness_AuditHoldsAndMoves :
    let s := audited (.stored ⟨21, 500210, 1301⟩)
    let moving := s.setSlot 3323 ⟨.inbound (tyre 9 1291), false⟩
    (reserved9.slot 9).content = .reserved (tyre 4 1293) 70 1 ∧ (s.slot 3320).content = .stored ⟨20, 500210, 1280⟩
      ∧ (s.slot 3323).content = .empty ∧ (moving.slot 3323).content = .inbound (tyre 9 1291) ∧ 3323 / 768 = 4
      ∧ (s.auditRecord 4).autoCorrect = true ∧ 4 * 768 + 31 * 8 + 1 = 3321
      ∧ (s.slot 3321).content = .stored ⟨21, 500210, 1301⟩ ∧ ((audited .empty).slot 3321).content = .empty
      ∧ reserved9.findLine 70 1 = some (line70 [⟨9, 1293⟩]) ∧ (line70 [⟨9, 1293⟩]).mark = none
      ∧ reserved9.findLine 71 1 = none := by decide +kernel

/-! ## Witnesses: the rest of the statements about operations -/

/-- Each timer at 0 with none before it: carousel 3's dwell and carousel 7's sweep, port 7's, the second line's of the
second order, the second entry's of lane 23, the session's; and none. -/
theorem witness_IdlePartTakesItsOwnEvents_expiries :
    let moving := (part.setCarousel 3 { car with moveTimer := some 1, dwellTimer := some 0 }).setCarousel 7
      { car with sweepTimer := some 0 }
    let ported := part.setPort 7 { timer := some 0 }
    let waited := withOrders [order70 .active [line70 []],
      { order70 .active [line70 [], { line70 [] with number := 2, wait := some 0 }] with id := 71 }] part
    let lost := part.setLane 23 { expected := [⟨1, 70, .inTransit, some 5, 0⟩, ⟨2, 70, .inTransit, some 0, 0⟩] }
    let session (n : Nat) := withSession ⟨.traffic, .replace, 0, 0xFFFFFFFF#32, false, 0, n⟩ part
    (moving.carousel 3).dwellTimer = some 0 ∧ (moving.carousel 7).sweepTimer = some 0
      ∧ (∀ k : CarouselNo, k < 3 → (moving.carousel k).moveTimer = none ∧ (moving.carousel k).dwellTimer = none
          ∧ (moving.carousel k).sweepTimer = none)
      ∧ (ported.port 7).timer = some 0 ∧ (∀ k : CarouselNo, k < 7 → (ported.port k).timer = none)
      ∧ (lost.lane 23).expected.map Entry.timer = [some 5, some 0] ∧ (∀ j < 23, (lost.lane j).expected = [])
      ∧ [moving, ported, waited, lost, session 0, session 1].map State.dueTimer
        = [some (.resumeDwellExpiry 3), some (.presentationTimerExpiry 7), some (.waitTimerExpiry 71 2),
           some (.transitTimerExpiry 23 1), some .sessionTimerExpiry, none] := by decide +kernel

theorem reserved9_slot (i : Nat) :
    reserved9.slot i = if i = 9 then ⟨.reserved (tyre 4 1293) 70 1, false⟩ else {} := by
  have e : reserved9.stock.slots = [(9, ⟨.reserved (tyre 4 1293) 70 1, false⟩)] := by decide +kernel
  rw [State.slot, e, sparseGet, sparseFind]
  by_cases hi : i = 9
  · subst hi; rfl
  · simp [hi, Ne.symm hi, sparseFind]

/-- One slot of the part records a tag. -/
theorem reserved9_tags : TablesOk reserved9 ∧ TagsDistinct reserved9 := by
  refine ⟨by constructor <;> decide +kernel, fun i j tag hi hj => ?_⟩
  have only : ∀ i, (reserved9.slot i).content.tag = some tag → i = 9 := fun i h => by
    rw [reserved9_slot] at h
    split at h
    · assumption
    · cases h
  rw [only i hi, only j hj]

theorem witness_EveryStepKeepsBanksCountersAndTables_tags :
    (TablesOk reserved9 ∧ TagsDistinct reserved9) ∧ ∃ t, step { reserved9 with pending := [.release 9 70 1] } = .next t :=
  ⟨reserved9_tags, _, rfl⟩

/-- Port 5 presents carrier 14, port 1 places at carrier 3, port 0 is idle and calls; and an indicator of each value. -/
theorem witness_EndOfEventQueuesDisplaysAndKeepsTheRest_indicators :
    let held := slot0 3955 (.held .vacated) presented
    let hinting := placing.onPort 1 fun p => { p with emptyHints := true }
    (plant.port 0).work = .idle ∧ ((port0 fun p => { p with work := .calling }).port 0).work = .calling
      ∧ (presented.port 5).work = .presenting ⟨14, [task70 2], 502, 1, []⟩ ∧ (placing.port 1).work = .placing 3
      ∧ (presented.carousel 5).positions = 4 ∧ (held.slot (5 * 768 + 14 * 8 + 3)).content = .held .vacated
      ∧ [held.indicatorAt 5 14 4, held.indicatorAt 5 14 3, held.indicatorAt 5 14 2, held.indicatorAt 5 14 1]
        = [.dark, .hold, .pickPending 9, .dark]
      ∧ ((held.onPort 5 fun p => { p with work := .presenting ⟨14, [], 502, 1, [(2, 9)]⟩ }).indicatorAt 5 14 2) = .pickDone 9
      ∧ (hinting.port 1).putaway = some ⟨tyre 9 1291, 792⟩ ∧ 792 % 8 = 0 ∧ (hinting.port 1).mode = .store
      ∧ (hinting.slot 795).content = .empty
      ∧ [hinting.indicatorAt 1 3 0, hinting.indicatorAt 1 3 3] = [.storeHere, .emptyHint] := by decide +kernel

/-- The receiver waits, and assembles; the fifth byte declares 57; the last byte of a check word; a spoiled symbol. -/
theorem witness_SpoiledTelegramsAreCountedAndUnaddressedPartRepeats_symbols :
    let bytes (n : Nat) : List Byte := position1.wire.take n
    part.ring.lineBits = [] ∧ part.resetHeld = false ∧ part.ring.receiver = .waiting
      ∧ [true, false, false, false, false, false, false, false].length = 8
      ∧ true ∈ [true, false, false, false, false, false, false, false]
      ∧ ((part.feedSymbol .marker).ring.receiver) = .assembling [] ∧ (bytes 4).length = 4 ∧ 56 < (57 : Byte).toNat
      ∧ bytes 7 ++ [position1.wire.getD 7 0] = position1.checked ++ be2 position1.checkWord.toNat
      ∧ position1.payload.length ≤ 56 ∧ ({ part with resetHeld := true } : State).resetHeld = true
      ∧ part.ring.transmitter.isSome = true ∧ ({ part with ring := {} } : State).ring.transmitter = none := by decide +kernel

/-- A POSITION without its byte, a SCAN of eight bytes; a SKIP of the drive, which has no owner. -/
theorem witness_PassingTelegramsAreDisposedOf_short :
    let position : Telegram := ⟨0, 30, 16, 20, []⟩
    let scan : Telegram := ⟨0, 31, 8, 20, [0, 0, 0, 9, 6, 31, 18, 20]⟩
    let skip : Telegram := ⟨0, 30, 11, 20, []⟩
    (OwnerNeeds traffic position 1 ∧ OwnerNeeds traffic scan 9) ∧ position.payload.length < 1 ∧ scan.payload.length < 9
      ∧ traffic.entryFor position = .observe ∧ traffic.entryFor scan = .take
      ∧ (∀ t ∈ [position, scan, skip], traffic.classifies t ∧ goodTelegram t t.checkWord)
      ∧ (∀ n, ¬OwnerNeeds traffic skip n) ∧ traffic.entryFor skip = .take := by
  refine ⟨⟨.drive 2 (by decide +kernel) (by decide), .scan 2 (by decide +kernel) rfl⟩, by decide, by decide,
    by decide +kernel, by decide +kernel, by unfold State.classifies goodTelegram; decide +kernel, ?_, by decide +kernel⟩
  have port : ∀ k : CarouselNo, (traffic.carousel k).port ≠ some 30 := by decide +kernel
  rintro n (⟨k, _, h⟩ | ⟨k, _, h⟩ | ⟨k, _, h⟩ | ⟨k, _, h⟩ | ⟨k, h, _⟩ | ⟨k, _, h⟩ | ⟨_, h⟩ | ⟨_, h⟩)
  · exact absurd h (by decide)
  · exact absurd h (by decide)
  · exact absurd h (by decide)
  · exact absurd h (by decide)
  · exact port k h
  · exact absurd h (by decide)
  · exact absurd h (by decide)
  · exact absurd h (by decide)

/-- Broadcasts too short, and ones that find one, seven and eight commands waiting. -/
theorem witness_BroadcastsAreForwarded_waiting :
    let waiting (n : Nat) : State := { traffic with command := { intake := List.replicate n ⟨0, [1], false⟩ } }
    let short : Telegram := ⟨63, 0, 1, 9, [4, 53]⟩
    (∀ n ∈ [0, 1, 7, 8], (waiting n).serving = true ∧ lowSix short.source ≠ (waiting n).address
        ∧ (waiting n).command.intake.length = n)
      ∧ goodTelegram short short.checkWord ∧ lowSix short.hop ≠ 0 ∧ lowSix short.dest = 63 ∧ lowSix short.kind = 1
      ∧ short.payload = 4 :: [53] ∧ [53].length < 2 := by unfold goodTelegram; decide +kernel

/-- A head that waits for a reply entry, one with an entry free, and a broadcast; the commands each head spells. -/
theorem witness_ArbiterChoosesFromThePointer_intake :
    let s (replies : Nat) (broadcast : Bool) : State := { traffic with
      ring := { traffic.ring with replies := List.replicate replies ⟨0, 1, .done, []⟩ }
      command := { intake := [⟨0, [1], broadcast⟩] } }
    traffic.command.intake = [] ∧ (s 4 false).command.intake = ⟨0, [1], false⟩ :: [] ∧ 4 ≤ (s 4 false).ring.replies.length
      ∧ (s 3 false).ring.replies.length < 4 ∧ (s 4 true).command.intake = ⟨0, [1], true⟩ :: []
      ∧ (Instr.identify 63).wellFormed = true ∧ (Instr.identify 63).commandSource = some 63
      ∧ commandPayload (.identify 63) = [1] ∧ part.accepts ∧ spellsNone 5 [4, 53] = true ∧ spellsNone 5 [] = true := by
  unfold State.accepts; decide +kernel

theorem witness_ArbiterChoosesFromThePointer_command : ∀ p, Instr.identify 63 ≠ .badCommandNumber 63 p := nofun

/-- One article, in slot 9: the lists of the indexes, each once. A bound order in lane 9; a stop; each bank's code. -/
theorem witness_ReadingCommandsAnswerFromTheRecords_lists :
    (reserved9.accepts ∧ TablesOk reserved9)
      ∧ (∀ x, x ∈ [401170] ↔ ∃ i g, (reserved9.slot i).content.listed = some g ∧ g.article = x)
      ∧ (∀ x, x ∈ [401170] ↔ ∃ i g, (reserved9.slot i).content.goods = some g ∧ g.article = x)
      ∧ (∀ i, i ∈ [9] ↔ (reserved9.slot i).content.tag ≠ none)
      ∧ (reserved9.articleList 401170).length = 1 ∧ (reserved9.carousel 0).stops = [] ++ ⟨1, [task70 1], 7, 0⟩ :: []
      ∧ 1 < (reserved9.carousel 0).carriers ∧ 7 ≤ 7 ∧ 23 ≤ 23
      ∧ reserved9.findOrder 70 = some (order70 .active [line70 [⟨9, 1293⟩]])
      ∧ 0 / 256 % 256 = BankName.a.code ∧ 258 / 256 % 256 = BankName.b.code ∧ 258 % 256 = 2 := by
  have one : ∀ f : Content → Option Goods, f .empty = none → f (.reserved (tyre 4 1293) 70 1) = some ⟨401170, 1293⟩ →
      ∀ x, x ∈ [401170] ↔ ∃ i g, f (reserved9.slot i).content = some g ∧ g.article = x := by
    intro f hn hs x
    rw [List.mem_singleton]
    constructor
    · rintro rfl
      exact ⟨9, _, by rw [reserved9_slot]; exact hs, rfl⟩
    · rintro ⟨i, g, hg, hx⟩
      rw [reserved9_slot] at hg
      split at hg
      · rw [hs] at hg; cases hg; exact hx.symm
      · rw [hn] at hg; cases hg
  refine ⟨⟨by unfold State.accepts; decide +kernel, reserved9_tags.1⟩, one _ rfl rfl, one _ rfl rfl, fun i => ?_, ?_⟩
  · rw [reserved9_slot, List.mem_singleton]
    by_cases hi : i = 9 <;> simp [hi, Content.tag]
  · decide +kernel

/-- No ZONE-CYCLE; and under it no cursor, a cursor at an active zone and at one that is none. -/
theorem witness_AuditIsSetAndItsLogRead_zones :
    let cycling (z : Option Nat) := plant.setAuditRecord 0 { mode := .zoneCycle, cursor := z }
    (plant.auditRecord 0).mode ≠ .zoneCycle
      ∧ (∀ z ∈ [none, some 0, some 15], ((cycling z).auditRecord 0).mode = .zoneCycle ∧ ((cycling z).auditRecord 0).cursor = z)
      ∧ (cycling (some 0)).zoneActive 0 0 = true ∧ (cycling (some 15)).zoneActive 0 15 = false := by decide +kernel

/-- Broadcasts that find seven and eight commands waiting. -/
theorem witness_CalendarAndEnablesAreSet_waiting :
    let waiting (n : Nat) : State := { plant with command := { intake := List.replicate n ⟨0, [1], false⟩ } }
    (∀ n ∈ [1, 7, 8], (waiting n).serving = true ∧ (waiting n).command.intake ≠ [])
      ∧ (waiting 7).command.intake.length < 8 ∧ 8 ≤ (waiting 8).command.intake.length := by decide +kernel

theorem witness_SlotRecordsAreLoaded_index : TablesOk reserved9 ∧ reserved9.tagSlot 4 = some 9
    ∧ reserved9.tagElsewhere 4 8 = some 9 ∧ reserved9.tagElsewhere 4 9 = none ∧ reserved9.demandAllows 401170 = true :=
  ⟨reserved9_tags.1, by decide +kernel, by decide +kernel, by decide +kernel, by decide +kernel⟩

/-- Three LANE-WAIT orders and one that is QUEUED: the second is first by priority, alone or with its waiting chain. -/
theorem witness_OrdersAreBoundToLanes_offer :
    let o (id priority : Nat) : Order := { order70 .laneWait [line70 []] with id := id, priority := priority, lane := none }
    let s (w : List WaitingChain) : State := { withOrders [o 1 0, o 2 3, o 3 3, order70 .queued []] with lanes := { waiting := w } }
    let chain : WaitingChain := ⟨255, false, [2, 3], 8⟩
    let orders := (s []).planner.orders
    (∀ x ∈ plant.planner.orders, x.state ≠ .laneWait) ∧ orders = [o 1 0] ++ o 2 3 :: [o 3 3, order70 .queued []]
      ∧ (o 2 3).state = .laneWait ∧ 3 - (o 2 3).priority < 3 - (o 1 0).priority
      ∧ 3 - (o 2 3).priority ≤ 3 - (o 3 3).priority ∧ (order70 .queued []).state ≠ .laneWait ∧ (s []).lanes.waiting = []
      ∧ (s [⟨7, true, [1], 4⟩, chain]).lanes.waiting = [⟨7, true, [1], 4⟩] ++ chain :: [] ∧ 2 ∈ chain.members
      ∧ 2 ∉ [1] := by decide +kernel

/-- An order in a lane without a chain, with one, and in no lane; a slot RESERVED for the line and one that is not. -/
theorem witness_OrdersAreClosed_chains :
    let o := order70 .active []
    o.lane = some 9 ∧ (plant.lane 9).chain = 0 ∧ ((lane9 { state := .filling, chain := 255 }).lane 9).chain ≠ 0
      ∧ ({ o with lane := none } : Order).lane = none
      ∧ (reserved9.slot 9).content = .reserved (tyre 4 1293) 70 1 ∧ (reserved9.slot 8).content = .empty := by decide +kernel

theorem witness_ArrivalsCompleteMoves_ports :
    ((port0 fun p => { p with work := .calling }).port 0).work = .calling ∧ (plant.port 0).work ≠ .calling := by
  decide +kernel

/-- An order in a lane, one in none, and no order. -/
theorem witness_PicksReachLineLaneAndPort_states :
    let s := withOrders [order70 .active [], { order70 .laneWait [] with id := 71, lane := none }]
    (s.findOrder 70).map Order.lane = some (some 9) ∧ (s.findOrder 71).map Order.lane = some none
      ∧ s.findOrder 72 = none := by decide +kernel

/-- A presentation of the carrier; a stop for it; neither, with the list empty and not. Tasks before and after a
position. A line with room for its remainder. -/
theorem witness_PlanningStepsAreTaken_tasks :
    (presented.port 5).work = .presenting ⟨14, [task70 2], 502, 1, []⟩ ∧ (presented.port 5).mode = .pick
      ∧ (reserved9.port 0).work = .idle ∧ (reserved9.carousel 0).stops = [⟨1, [task70 1], 7, 0⟩]
      ∧ (∀ y ∈ (reserved9.carousel 0).stops, y.carrier ≠ 15) ∧ (plant.carousel 0).stops = []
      ∧ (∀ x ∈ [task70 0, task70 3], x.position ≤ (task70 3).position)
      ∧ (∀ x, [task70 7].head? = some x → (task70 3).position < x.position)
      ∧ reserved9.findLine 70 1 = some (line70 [⟨9, 1293⟩]) ∧ (line70 [⟨9, 1293⟩]).members.length + 0 + 0 ≤ 4 := by
  refine ⟨by decide +kernel, by decide +kernel, by decide +kernel, by decide +kernel, by decide +kernel,
    by decide +kernel, by decide, ?_, by decide +kernel, by decide⟩
  intro x h; cases h; decide

theorem witness_AuditHoldsAndMoves_blocked : ((slot0 9 .blocked).slot 9).content = .blocked := by decide +kernel

/-- The first of two equal events handed, and an event that is not handed. -/
theorem witness_IdlePartTakesItsOwnEvents_take :
    let s := part.hand [.skip 1, .ready 0, .ready 0]
    s.handed = [.skip 1] ++ .ready 0 :: [.ready 0] ∧ Instr.ready 0 ∉ [Instr.skip 1] ∧ Instr.ready 7 ∉ s.handed := by decide +kernel

/-- A busy transmitter; an idle one with every queue empty, and with one telegram in the queue of each source, the last
from the pointer on; a DISPLAY that the event itself queues. -/
theorem witness_EndOfEventQueuesDisplaysAndKeepsTheRest_arbiter :
    let idle (r : Ring) (s : State := part) : State := { s with ring := { r with transmitter := none } }
    let shown (s₀ s : State) := (List.range 8).foldl (fun t k => State.showDisplay s₀ t k) s
    let forward := idle { forward := [position1], pointer := .field }
    let reply := idle { replies := [⟨0, 1, .done, []⟩], pointer := .notice }
    let notice := idle { notices := [⟨1, .started 1 true false⟩], pointer := .forward }
    part.ring.transmitter.isSome = true
      ∧ (∀ s ∈ [idle {}, forward, reply, notice], s.ring.transmitter = none ∧ (shown s s).ring.field = [])
      ∧ (idle {}).ring.forward = [] ∧ (idle {}).ring.replies = [] ∧ (idle {}).ring.notices = []
      ∧ Source.field.fromHere = [.field, .reply, .notice] ++ .forward :: [] ∧ forward.ring.forward = position1 :: []
      ∧ Source.notice.fromHere = [.notice, .forward, .field] ++ .reply :: [] ∧ reply.ring.replies.length = 1
      ∧ Source.forward.fromHere = [.forward, .field, .reply] ++ .notice :: [] ∧ notice.ring.notices.length = 1
      ∧ Source.reply.fromHere = [.reply, .notice, .forward] ++ .field :: []
      ∧ (shown plant (idle { pointer := .reply } ((carousel0 fun c => { c with port := some 31 }).setMessage 0 .wait))).ring.field.length
        = 1 := by
  decide +kernel

/-- A carrier the port presents or places at, and one it does not; and a slot that is mapped, and the first past each
figure. -/
theorem witness_SlotRecordsAreLoaded_written :
    (presented.port 5).work = .presenting ⟨14, [task70 2], 502, 1, []⟩ ∧ 3954 / 768 = 5 ∧ 3954 % 768 / 8 = 14
      ∧ (placing.port 1).work = .placing 3 ∧ 792 / 768 = 1 ∧ 792 % 768 / 8 = 3
      ∧ 3960 / 768 = 5 ∧ 3960 % 768 / 8 ≠ 14
      ∧ [plant.mapped 0, plant.mapped 121, plant.mapped 122, plant.mapped 128, plant.mapped 6144]
        = [true, true, false, false, false] := by decide +kernel

/-- Two lanes with an open chain and one with it closed; two waiting chains with it, the first closed. -/
theorem witness_OrdersAreBoundToLanes_open :
    let l (closed : Bool) : Lane := { state := .filling, chain := 255, closed := closed }
    let s : State := { ((plant.setLane 0 (l true)).setLane 9 (l false)).setLane 23 (l false) with lanes :=
      { (((plant.setLane 0 (l true)).setLane 9 (l false)).setLane 23 (l false)).lanes with
        waiting := [⟨255, true, [1], 4⟩, ⟨255, false, [2], 4⟩] } }
    s.openChainLane 255 = some 9 ∧ (s.lane 9).state ≠ .free ∧ (s.lane 9).chain = 255 ∧ (s.lane 9).closed = false
      ∧ s.openWaitingChain 255 = some ⟨255, false, [2], 4⟩
      ∧ s.lanes.waiting = [⟨255, true, [1], 4⟩] ++ ⟨255, false, [2], 4⟩ :: [] := by decide +kernel

/-- Each state of a line, from its remainder, its wait, its members and its short count. -/
theorem witness_PlanningStepsAreTaken_states :
    let l (short : Nat) (members : List Member) (wait : Option Nat) : Line := { line70 members with short := short, wait := wait }
    [(l 0 [] (some 0)).remainder, (l 0 [] none).remainder, (l 3 [⟨9, 1293⟩] none).remainder, (l 4 [] none).remainder,
        ({ line70 [] with picked := 4 } : Line).remainder] = [4, 4, 0, 0, 0]
      ∧ (l 0 [] (some 0)).wait ≠ none ∧ (l 3 [⟨9, 1293⟩] none).members ≠ [] ∧ (l 4 [] none).short ≠ 0
      ∧ ({ line70 [] with picked := 4 } : Line).short = 0 := by decide +kernel

/-- R78, R167, R180: without a presentation and a put-away their groups are an absent tag, an absent carrier and zeros. A
presentation sends its tasks at positions 1 and 3, its sequence and bypass count, and its marks at positions 2 and 3,
five bits for a lane (log entry 57). -/
theorem test_port_groups :
    let pr : Presentation := ⟨14, [task70 1, task70 3], 502, 1, [(2, 7), (3, 23)]⟩
    (plant.port 0).presentationGroup = 255 :: List.replicate 13 0 ∧ putawayBytes (plant.port 0).putaway = List.replicate 11 0
      ∧ (placing.port 1).presentationGroup = [3, 255, 255, 255, 255, 255, 0, 0, 0, 255, 255, 255, 255, 255]
      ∧ (plant.port 0).display.indicators.length = 8
      ∧ pr.bytes = [14] ++ [250, 126, 159, 255, 255] ++ [1, 246] ++ [1] ++ [255, 207, 127, 255, 255] := by decide +kernel

/-- R63: the third POSITION of a move gives a sample, of 50 ms, though its carrier is a mismatch: (7 × 1500 + 54) div 8. -/
theorem test_mismatch_gives_sample :
    let s := carousel0 fun c => { c with state := .moving, estimate := 1500, positionsSeen := 2 }
    ((after (.position 0 16) s).carousel 0).estimate = 1319 ∧ ((after (.position 0 16) s).carousel 0).state = .fault := by
  decide +kernel

/-- An expiry with a session and without one, while a command waits in the intake FIFO. -/
theorem witness_LoadSessionsOpenAndEnd_waiting :
    let waiting (s : State) : State := { s with command := { s.command with intake := [⟨0, [1], false⟩] } }
    let open_ := waiting (withSession ⟨.traffic, .replace, 0, 0xFFFFFFFF#32, false, 0, 0⟩ part)
    open_.serving = true ∧ open_.policy.session.isSome = true ∧ (waiting part).serving = true
      ∧ (waiting part).policy.session = none := by decide +kernel

/-- A payload of each layout at its length: zone lists, slot records, hold forms and order lines. -/
theorem witness_CommandsWaitOrAreRefused_lengths :
    (4 : Byte).toNat = 4 ∧ [53].length < 2 ∧ (7 : Byte).toNat = 7 ∧ [0, 0].length < 3 ∧ [9].length < (2 : Byte).toNat
      ∧ (17 : Byte).toNat = 17 ∧ ¬(List.replicate 12 0).length < 12 * (1 : Byte).toNat ∧ (18 : Byte).toNat = 18
      ∧ 12 ≤ ([0, 0, 3] ++ List.replicate 9 (0 : Byte)).length ∧ 2 < (3 : Byte).toNat ∧ (24 : Byte).toNat = 24
      ∧ (List.replicate 8 (0 : Byte)).length = 8 ∧ (List.replicate 4 0).length < 5 * (1 : Byte).toNat := by decide

/-- An IDENTIFY with a byte beyond its layout, to a part that takes it at once. -/
theorem witness_CommandTelegramActsAsItsRow_beyond :
    let t : Telegram := { command6 with payload := [1, 7] }
    t.payload = commandPayload (.identify 0) ++ [7] ∧ (Instr.identify 0).wellFormed = true
      ∧ (Instr.identify 0).commandSource = some 0 ∧ traffic.accepts ∧ goodTelegram t t.checkWord ∧ lowSix t.source = 0
      ∧ 0 ≠ traffic.address ∧ lowSix t.hop ≠ 0 ∧ lowSix t.dest = traffic.address ∧ lowSix t.kind = 1 := by
  unfold State.accepts goodTelegram; decide +kernel

end Sys2Proof.Tests
end

/-! # The family of the slot table: HOLD-RELEASE (R25)

Each form's answer is given case by case, in the order of R25's refusals. The statement then follows by placing the
answer as the reply of command 18. -/

namespace Sys2Proof.Machine

/-! ## What R25 asks of the slot and of the operands -/

theorem Content.outOfUse_iff (x : Content) : x.outOfUse = true ↔ (∃ h, x = .held h) ∨ x = .blocked := by
  cases x <;> simp [Content.outOfUse]

/-- A slot has a full record exactly where it is HELD with a tag and with goods. -/
theorem Content.heldTyre_eq_some_iff (x : Content) (t : Tyre) :
    x.heldTyre = some t ↔
      ∃ h tag g, x = .held h ∧ h.tag = some tag ∧ h.goods = some g ∧ t = ⟨tag, g.article, g.ordinal⟩ := by
  constructor
  · intro e
    cases x with
    | held h =>
      simp only [Content.heldTyre] at e
      split at e
      · rename_i tag g htag hgoods
        exact ⟨h, tag, g, rfl, htag, hgoods, (Option.some.inj e).symm⟩
      · cases e
    | _ => cases e
  · rintro ⟨h, tag, g, rfl, htag, hgoods, rfl⟩
    simp [Content.heldTyre, htag, hgoods]

theorem Content.heldTyre_eq_none {x : Content}
    (hx : ¬∃ h tag g, x = .held h ∧ h.tag = some tag ∧ h.goods = some g) : x.heldTyre = none := by
  rw [Option.eq_none_iff_forall_ne_some]
  intro t e
  obtain ⟨h, tag, g, hheld, htag, hgoods, -⟩ := (x.heldTyre_eq_some_iff t).1 e
  exact hx ⟨h, tag, g, hheld, htag, hgoods⟩

/-- The operands of a SET are in range: the article (R149) and the date code (R8). -/
theorem articleInRange_dateValid_iff (a w y : Nat) :
    (articleInRange a && dateValid w y) = true ↔ 1 ≤ a ∧ a ≤ 1048575 ∧ 1 ≤ w ∧ w ≤ 53 ∧ y ≤ 99 := by
  simp [articleInRange, dateValid, and_assoc]

/-! ## ACCEPT -/

theorem holdAcceptAnswer_unmapped {s : State} {i : Nat} (hm : s.mapped i = false) :
    holdAcceptAnswer i s = s.refuse .badArgument := by
  simp [holdAcceptAnswer, hm]

theorem holdAcceptAnswer_of_heldTyre_none {s : State} {i : Nat} (hm : s.mapped i = true)
    (hx : (s.slot i).content.heldTyre = none) : holdAcceptAnswer i s = s.refuse .refusedState := by
  simp [holdAcceptAnswer, hm, hx]

theorem holdAcceptAnswer_of_heldTyre_some {s : State} {i : Nat} {t : Tyre} (hm : s.mapped i = true)
    (hx : (s.slot i).content.heldTyre = some t) :
    holdAcceptAnswer i s = ⟨(s.refresh i (.stored t)).hand [.wakeUp t.article], .done, []⟩ := by
  simp [holdAcceptAnswer, hm, hx]

/-! ## CLEAR, and SET with tag 0 -/

theorem holdClearAnswer_unmapped {s : State} {i : Nat} (hm : s.mapped i = false) :
    holdClearAnswer i s = s.refuse .badArgument := by
  simp [holdClearAnswer, hm]

theorem holdClearAnswer_inUse {s : State} {i : Nat} (hm : s.mapped i = true)
    (hx : (s.slot i).content.outOfUse = false) : holdClearAnswer i s = s.refuse .refusedState := by
  simp [holdClearAnswer, hm, hx]

theorem holdClearAnswer_outOfUse {s : State} {i : Nat} (hm : s.mapped i = true)
    (hx : (s.slot i).content.outOfUse = true) : holdClearAnswer i s = ⟨s.refresh i .empty, .done, []⟩ := by
  simp [holdClearAnswer, hm, hx]

theorem holdSetAnswer_tag_zero (i a w y : Nat) (s : State) : holdSetAnswer i 0 a w y s = holdClearAnswer i s := rfl

/-! ## SET with a tag -/

theorem holdSetAnswer_unmapped {s : State} {i : Nat} (hm : s.mapped i = false) (tag a w y : Nat) :
    holdSetAnswer i tag a w y s = s.refuse .badArgument := by
  by_cases htag : tag = 0
  · rw [htag, holdSetAnswer_tag_zero, holdClearAnswer_unmapped hm]
  · simp [holdSetAnswer, htag, hm]

section
variable {s : State} {i tag a w y : Nat}

theorem holdSetAnswer_invalid (htag : tag ≠ 0) (hv : (articleInRange a && dateValid w y) = false) :
    holdSetAnswer i tag a w y s = s.refuse .badArgument := by
  have hbad : (!s.mapped i || !articleInRange a || !dateValid w y) = true := by
    rw [Bool.or_assoc, ← Bool.not_and, hv, Bool.not_false, Bool.or_true]
  simp only [holdSetAnswer, if_neg htag, if_pos hbad]

/-- With its operands in range a SET is judged by the slot, then by the other slots. -/
theorem holdSetAnswer_valid (htag : tag ≠ 0) (hm : s.mapped i = true)
    (hv : (articleInRange a && dateValid w y) = true) :
    holdSetAnswer i tag a w y s =
      if !(s.slot i).content.outOfUse then s.refuse .refusedState
      else
        match s.tagElsewhere tag i with
        | some j => ⟨s, .refusedState, be2 j⟩
        | none =>
          if !s.demandAllows a then s.refuse .noSpace
          else ⟨(s.refresh i (.stored ⟨tag, a, ordinalOf w y⟩)).hand [.wakeUp a], .done, []⟩ := by
  obtain ⟨harticle, hdate⟩ := Bool.and_eq_true_iff.1 hv
  simp only [holdSetAnswer, if_neg htag, hm, harticle, hdate]
  rfl

variable (htag : tag ≠ 0) (hm : s.mapped i = true) (hv : (articleInRange a && dateValid w y) = true)
include htag hm hv

theorem holdSetAnswer_inUse (hx : (s.slot i).content.outOfUse = false) :
    holdSetAnswer i tag a w y s = s.refuse .refusedState := by
  simp [holdSetAnswer_valid htag hm hv, hx]

theorem holdSetAnswer_elsewhere (hx : (s.slot i).content.outOfUse = true) {j : Nat}
    (hj : s.tagElsewhere tag i = some j) : holdSetAnswer i tag a w y s = ⟨s, .refusedState, be2 j⟩ := by
  simp [holdSetAnswer_valid htag hm hv, hx, hj]

theorem holdSetAnswer_noSpace (hx : (s.slot i).content.outOfUse = true) (hj : s.tagElsewhere tag i = none)
    (hd : s.demandAllows a = false) : holdSetAnswer i tag a w y s = s.refuse .noSpace := by
  simp [holdSetAnswer_valid htag hm hv, hx, hj, hd]

theorem holdSetAnswer_done (hx : (s.slot i).content.outOfUse = true) (hj : s.tagElsewhere tag i = none)
    (hd : s.demandAllows a = true) :
    holdSetAnswer i tag a w y s =
      ⟨(s.refresh i (.stored ⟨tag, a, ordinalOf w y⟩)).hand [.wakeUp a], .done, []⟩ := by
  simp [holdSetAnswer_valid htag hm hv, hx, hj, hd]

end

/-! ## The rows: the answer is placed as the reply of command 18 -/

section
variable {s t : State} (hs : s.accepts) {status : Status} {data : List Byte}
include hs

/-- A command that is taken as it arrives leaves what its answer leaves, with the reply the answer gives. -/
theorem command_of_answer {c : Instr} {src : Nat} (hx : answerTo c s = ⟨t, status, data⟩) :
    command c src s =
      .next (State.finish s (t.placeReply src (commandNumber (commandPayload c)) status data)) := by
  rw [command_eq hs, hx]; rfl

theorem exec_holdReleaseAccept_of_answer {src i : Nat} (hx : holdAcceptAnswer i s = ⟨t, status, data⟩) :
    exec (.holdReleaseAccept src i) s = .next (State.finish s (t.placeReply src 18 status data)) := 
  command_of_answer hs hx

theorem exec_holdReleaseClear_of_answer {src i : Nat} (hx : holdClearAnswer i s = ⟨t, status, data⟩) :
    exec (.holdReleaseClear src i) s = .next (State.finish s (t.placeReply src 18 status data)) := 
  command_of_answer hs hx

theorem exec_holdReleaseSet_of_answer {src i tag a w y : Nat} (hx : holdSetAnswer i tag a w y s = ⟨t, status, data⟩) :
    exec (.holdReleaseSet src i tag a w y) s =
      .next (State.finish s (t.placeReply src 18 status data)) := 
  command_of_answer hs hx

/-- A SET with tag 0 does what CLEAR does (R25). -/
theorem exec_clearing_of_answer {src i : Nat} {c : Instr}
    (hc : c = .holdReleaseClear src i ∨ ∃ a w y, c = .holdReleaseSet src i 0 a w y)
    (hx : holdClearAnswer i s = ⟨t, status, data⟩) :
    exec c s = .next (State.finish s (t.placeReply src 18 status data)) := by
  obtain rfl | ⟨a, w, y, rfl⟩ := hc
  · exact exec_holdReleaseClear_of_answer hs hx
  · exact exec_holdReleaseSet_of_answer hs ((holdSetAnswer_tag_zero i a w y s).trans hx)

end

/-- Settles O31: one clause after another, in the order of R25's refusals, from each form's answer. -/
theorem holdsAreReleased : Obligations.HoldsAreReleased := by
  intro s src i hs content outOfUse full
  have inUse (h : ¬outOfUse) : content.outOfUse = false :=
    Bool.eq_false_iff.2 (mt content.outOfUse_iff.1 h)
  have isOut (h : outOfUse) : content.outOfUse = true := content.outOfUse_iff.2 h
  refine ⟨fun hm => ⟨?acceptUnmapped, ?clearUnmapped, ?setUnmapped⟩,
    fun hm => ⟨?acceptNoRecord, ?acceptFull, ?clearing, ?setTagged⟩⟩
  case acceptUnmapped => exact exec_holdReleaseAccept_of_answer hs (holdAcceptAnswer_unmapped hm)
  case clearUnmapped => exact exec_holdReleaseClear_of_answer hs (holdClearAnswer_unmapped hm)
  case setUnmapped =>
    intro tag a w y
    exact exec_holdReleaseSet_of_answer hs (holdSetAnswer_unmapped hm tag a w y)
  case acceptNoRecord =>
    intro hfull
    exact exec_holdReleaseAccept_of_answer hs
      (holdAcceptAnswer_of_heldTyre_none hm (Content.heldTyre_eq_none hfull))
  case acceptFull =>
    intro h tag g hheld htag hgoods
    have htyre := (content.heldTyre_eq_some_iff _).2 ⟨h, tag, g, hheld, htag, hgoods, rfl⟩
    exact exec_holdReleaseAccept_of_answer hs (holdAcceptAnswer_of_heldTyre_some hm htyre)
  case clearing =>
    intro c hc
    exact ⟨fun h => exec_clearing_of_answer hs hc (holdClearAnswer_inUse hm (inUse h)),
      fun h => exec_clearing_of_answer hs hc (holdClearAnswer_outOfUse hm (isOut h))⟩
  case setTagged =>
    intro tag a w y htag valid
    have hrange := articleInRange_dateValid_iff a w y
    refine ⟨fun hv => ?_, fun hv h => ?_, fun j hv h hj => ?_, fun hv h hj hd => ?_, fun hv h hj hd => ?_⟩
    · exact exec_holdReleaseSet_of_answer hs
        (holdSetAnswer_invalid htag (Bool.eq_false_iff.2 (mt hrange.1 hv)))
    · exact exec_holdReleaseSet_of_answer hs (holdSetAnswer_inUse htag hm (hrange.2 hv) (inUse h))
    · exact exec_holdReleaseSet_of_answer hs (holdSetAnswer_elsewhere htag hm (hrange.2 hv) (isOut h) hj)
    · exact exec_holdReleaseSet_of_answer hs (holdSetAnswer_noSpace htag hm (hrange.2 hv) (isOut h) hj hd)
    · exact exec_holdReleaseSet_of_answer hs (holdSetAnswer_done htag hm (hrange.2 hv) (isOut h) hj hd)

end Sys2Proof.Machine

/-! # The family of orders: ORDER (R28)

R28's checks are read off the operands first; the answer is then given once per outcome, in the order of the checks,
with what the Lane Unit's binding (R104, R105) comes to as the last of them. -/

namespace Sys2Proof.Machine

/-! ## Check 1: the order's own fields -/

theorem setRuleOf?_isSome_iff (n : Nat) : (setRuleOf? n).isSome = true ↔ n ≤ 2 := by
  match n with
  | 0 | 1 | 2 => simp [setRuleOf?]
  | n + 3 => simp [setRuleOf?]

theorem lineArgValid_iff (l : LineArg) :
    lineArgValid l = true ↔
      1 ≤ l.quantity ∧ l.quantity ≤ 8 ∧ 1 ≤ l.article ∧ l.article ≤ 1048575 ∧ l.rule ≤ 2 := by
  simp [lineArgValid, articleInRange, setRuleOf?_isSome_iff, and_assoc]

theorem orderFieldsValid_iff (id pr po : Nat) (lines : List LineArg) :
    orderFieldsValid id pr po lines = true ↔
      id ≠ 0 ∧ pr ≤ 3 ∧ po ≤ 1 ∧ 1 ≤ lines.length ∧ lines.length ≤ 8
        ∧ ∀ l ∈ lines, 1 ≤ l.quantity ∧ l.quantity ≤ 8 ∧ 1 ≤ l.article ∧ l.article ≤ 1048575 ∧ l.rule ≤ 2 := by
  simp only [orderFieldsValid, Bool.and_eq_true, decide_eq_true_eq, List.all_eq_true, lineArgValid_iff, and_assoc]

/-! ## Check 3: the first line with no article in the active bank -/

theorem mem_of_mem_numberFrom {α : Type} {n : Nat} {l : List α} {x : Nat × α} (hx : x ∈ numberFrom n l) :
    x.2 ∈ l := by
  induction l generalizing n with
  | nil => cases hx
  | cons a l ih =>
    obtain rfl | hx := List.mem_cons.1 hx
    · exact List.mem_cons_self
    · exact List.mem_cons_of_mem _ (ih hx)

/-- The first item that meets `p` is found under its number: one more than the items before it, from `n` on. -/
theorem find?_numberFrom_append {α : Type} {p : α → Bool} {a : α} (ha : p a = true) (after : List α) :
    ∀ (before : List α) (n : Nat), (∀ x ∈ before, p x = false) →
      (numberFrom n (before ++ a :: after)).find? (fun x => p x.2) = some (n + before.length, a)
  | [], n, _ => by simp [numberFrom, ha]
  | b :: before, n, hb => by
    have hrest := find?_numberFrom_append ha after before (n + 1) fun x hx => hb x (List.mem_cons_of_mem _ hx)
    have hhead : p b = false := hb b List.mem_cons_self
    simp [numberFrom, hhead, hrest, Nat.add_assoc, Nat.add_comm 1]

theorem State.unknownLine_eq_none {s : State} {lines : List LineArg}
    (h : ∀ l ∈ lines, s.article l.article ≠ none) : s.unknownLine lines = none := by
  have hfind : (numberFrom 1 lines).find? (fun x => (s.article x.2.article).isNone) = none := by
    rw [List.find?_eq_none]
    intro x hx
    simpa using h x.2 (mem_of_mem_numberFrom hx)
  rw [State.unknownLine, hfind, Option.map_none]

theorem State.unknownLine_append {s : State} {before after : List LineArg} {l : LineArg}
    (hb : ∀ x ∈ before, s.article x.article ≠ none) (hl : s.article l.article = none) :
    s.unknownLine (before ++ l :: after) = some (before.length + 1) := by
  have hknown : ∀ x ∈ before, (s.article x.article).isNone = false := fun x hx =>
    Option.isNone_eq_false_iff.2 (Option.isSome_iff_ne_none.2 (hb x hx))
  have hfind := find?_numberFrom_append (p := fun x : LineArg => (s.article x.article).isNone) (a := l)
    (by simp [hl]) after before 1 hknown
  rw [State.unknownLine, hfind, Option.map_some, Nat.add_comm]

/-! ## The record of an accepted order -/

theorem clamp_eq_max_min {low high : Nat} (h : low ≤ high) (n : Nat) : clamp low high n = max low (min n high) := by
  unfold clamp
  split_ifs <;> omega

theorem shortageOf?_getD {po : Nat} (h : po ≤ 1) (limit : Nat) :
    (shortageOf? po limit).getD .shipShort = if po = 0 then .shipShort else .hold (max 1 (min limit 1440)) := by
  obtain rfl | rfl := Nat.le_one_iff_eq_zero_or_eq_one.1 h
  · rfl
  · simp [shortageOf?, clamp_eq_max_min]

theorem limitClamped_iff (po limit : Nat) :
    limitClamped po limit = true ↔ po = 1 ∧ ¬(1 ≤ limit ∧ limit ≤ 1440) := by
  simp only [limitClamped, Bool.and_eq_true, Bool.or_eq_true, decide_eq_true_eq]
  omega

theorem newLine_eq (n : Nat) {l : LineArg} (h : l.rule ≤ 2) :
    newLine n l = {
      number := n, article := l.article, quantity := l.quantity,
      rule := if l.rule = 0 then .any else if l.rule = 1 then .matching else .matchingOrOldest } := by
  obtain ⟨article, quantity, rule⟩ := l
  match rule, h with
  | 0, _ | 1, _ | 2, _ => rfl

theorem map_newLine_numberFrom {lines : List LineArg} (h : ∀ l ∈ lines, l.rule ≤ 2) :
    (numberFrom 1 lines).map (fun x => newLine x.1 x.2) = (numberFrom 1 lines).map (fun x => {
      number := x.1, article := x.2.article, quantity := x.2.quantity,
      rule := if x.2.rule = 0 then .any else if x.2.rule = 1 then .matching else .matchingOrOldest }) :=
  List.map_congr_left fun x hx => newLine_eq x.1 (h x.2 (mem_of_mem_numberFrom hx))

/-- The record of an order whose fields are in range, with its numbered operands read out. -/
theorem newOrder_eq (src id pr ch n : Nat) {po : Nat} (limit : Nat) (co : Bool) {lines : List LineArg} (hpo : po ≤ 1)
    (hrules : ∀ l ∈ lines, l.rule ≤ 2) (lane : Option Nat) :
    newOrder src id pr ch co ((shortageOf? po limit).getD .shipShort) lines n lane = {
      id := id, source := src, priority := pr, chain := ch, continues := co,
      shortage := if po = 0 then .shipShort else .hold (max 1 (min limit 1440)),
      state := if lane = none then .laneWait else .queued, lane := lane,
      lines := (numberFrom 1 lines).map (fun x => {
        number := x.1, article := x.2.article, quantity := x.2.quantity,
        rule := if x.2.rule = 0 then .any else if x.2.rule = 1 then .matching else .matchingOrOldest }),
      acceptance := n } := by
  rw [shortageOf?_getD hpo, newOrder.eq_def, map_newLine_numberFrom hrules]
  cases lane <;> rfl

theorem State.acceptOrder_noLane (t : State) {o : Order} (h : o.lane = none) :
    t.acceptOrder o = { t with planner := ⟨t.planner.orders ++ [o], o.acceptance⟩ } := by
  simp only [State.acceptOrder, h]

theorem State.acceptOrder_lane (t : State) {o : Order} {j : Nat} (h : o.lane = some j) :
    t.acceptOrder o =
      (({ t with planner := ⟨t.planner.orders ++ [o], o.acceptance⟩ } : State).judgeLane j).takeUp := by
  simp only [State.acceptOrder, h]

/-! ## The answer, by R28's checks in order -/

section
variable {s : State} {id pr po : Nat} {lines : List LineArg} (src ch limit : Nat) (co : Bool)

theorem orderAnswer_invalid (hf : orderFieldsValid id pr po lines = false) :
    orderAnswer src id pr ch co po limit lines s = s.refuse .badArgument := by
  simp [orderAnswer, hf]

variable (hf : orderFieldsValid id pr po lines = true)
include hf

theorem orderAnswer_inTable (hid : s.findOrder id ≠ none) :
    orderAnswer src id pr ch co po limit lines s = s.refuse .refusedState := by
  simp [orderAnswer, hf, Option.isSome_iff_ne_none.2 hid]

variable (hid : s.findOrder id = none)
include hid

theorem orderAnswer_unknownArticle {n : Nat} (hn : s.unknownLine lines = some n) :
    orderAnswer src id pr ch co po limit lines s = ⟨s, .unknownArticle, be1 n⟩ := by
  simp [orderAnswer, hf, hid, hn]

variable (hn : s.unknownLine lines = none)
include hn

theorem orderAnswer_tooLarge (ht : 16 < lineTotal lines) :
    orderAnswer src id pr ch co po limit lines s = s.refuse .tooLarge := by
  simp [orderAnswer, hf, hid, hn, ht]

variable (ht : lineTotal lines ≤ 16)
include ht

theorem orderAnswer_noSpace (ho : 64 ≤ s.planner.orders.length) :
    orderAnswer src id pr ch co po limit lines s = s.refuse .noSpace := by
  simp [orderAnswer, hf, hid, hn, ht.not_gt, ho]

variable (ho : s.planner.orders.length < 64)
include ho

variable {t : State}

theorem orderAnswer_bindingRefused {st : Status} (hb : s.bindOrder id ch (lineTotal lines) co = (t, .refused st)) :
    orderAnswer src id pr ch co po limit lines s = s.refuse st := by
  simp [orderAnswer, hf, hid, hn, ht.not_gt, ho.not_ge, hb]

theorem orderAnswer_noLane (hb : s.bindOrder id ch (lineTotal lines) co = (t, .noLane)) :
    orderAnswer src id pr ch co po limit lines s =
      ⟨t.acceptOrder (newOrder src id pr ch co ((shortageOf? po limit).getD .shipShort) lines
          (nextSequence s.planner.acceptances) none),
        if limitClamped po limit then .clamped else .done, be2 (nextSequence s.planner.acceptances) ++ be1 255⟩ := by
  simp [orderAnswer, hf, hid, hn, ht.not_gt, ho.not_ge, hb]

theorem orderAnswer_lane {j : Nat} (hb : s.bindOrder id ch (lineTotal lines) co = (t, .lane j)) :
    orderAnswer src id pr ch co po limit lines s =
      ⟨t.acceptOrder (newOrder src id pr ch co ((shortageOf? po limit).getD .shipShort) lines
          (nextSequence s.planner.acceptances) (some j)),
        if limitClamped po limit then .clamped else .done, be2 (nextSequence s.planner.acceptances) ++ be1 j⟩ := by
  simp [orderAnswer, hf, hid, hn, ht.not_gt, ho.not_ge, hb]

end

theorem exec_order_of_answer {s t : State} (hs : s.accepts) {src id pr ch po limit : Nat} {co : Bool}
    {lines : List LineArg} {status : Status} {data : List Byte}
    (hx : orderAnswer src id pr ch co po limit lines s = ⟨t, status, data⟩) :
    exec (.order src id pr ch co po limit lines) s =
      .next (State.finish s (t.placeReply src 24 status data)) :=
  command_of_answer hs hx

/-- Settles O35: one clause after another, in the order of R28's checks; the accepted order's record is the statement's
by its fields. -/
theorem ordersAreAcceptedOrRefused : Obligations.OrdersAreAcceptedOrRefused := by
  intro s src id pr ch po limit co lines hs c fields known total sequence status record entered
  have hfields := orderFieldsValid_iff id pr po lines
  refine ⟨fun h => ?invalid, fun h hid => ?inTable,
    fun h hid => ⟨?unknownArticle, fun hk ht => ?tooLarge, fun hk ht ho => ?noSpace, fun hk ht ho => ?checked⟩⟩
  case invalid =>
    exact exec_order_of_answer hs (orderAnswer_invalid src ch limit co (Bool.eq_false_iff.2 (mt hfields.1 h)))
  case inTable =>
    exact exec_order_of_answer hs (orderAnswer_inTable src ch limit co (hfields.2 h) hid)
  case unknownArticle =>
    intro before l after hlines hb hl
    have hn : s.unknownLine lines = some (before.length + 1) := hlines ▸ State.unknownLine_append hb hl
    exact exec_order_of_answer hs (orderAnswer_unknownArticle src ch limit co (hfields.2 h) hid hn)
  case tooLarge =>
    exact exec_order_of_answer hs
      (orderAnswer_tooLarge src ch limit co (hfields.2 h) hid (State.unknownLine_eq_none hk) ht)
  case noSpace =>
    exact exec_order_of_answer hs
      (orderAnswer_noSpace src ch limit co (hfields.2 h) hid (State.unknownLine_eq_none hk) ht ho)
  case checked =>
    have hvalid := hfields.2 h
    have hn := State.unknownLine_eq_none hk
    obtain ⟨-, -, hpo, -, -, hlines⟩ := h
    have hrules : ∀ l ∈ lines, l.rule ≤ 2 := by
      intro l hl
      obtain ⟨-, -, -, -, hrule⟩ := hlines l hl
      exact hrule
    have hrecord (lane : Option Nat) :
        newOrder src id pr ch co ((shortageOf? po limit).getD .shipShort) lines sequence lane = record lane :=
      newOrder_eq src id pr ch sequence limit co hpo hrules lane
    have hstatus : (if limitClamped po limit then Status.clamped else .done) = status := by
      simp only [status, limitClamped_iff]
    refine ⟨fun t st hb => ?refused, fun t hb => ?noLane, fun t j hb => ?lane⟩
    case refused =>
      exact exec_order_of_answer hs (orderAnswer_bindingRefused src ch limit co hvalid hid hn ht ho hb)
    case noLane =>
      have hx := orderAnswer_noLane src ch limit co hvalid hid hn ht ho hb
      have hentered : t.acceptOrder (record none) = entered t (record none) := t.acceptOrder_noLane rfl
      exact exec_order_of_answer hs (hx.trans (by rw [← hentered, ← hrecord, ← hstatus]; rfl))
    case lane =>
      have hx := orderAnswer_lane src ch limit co hvalid hid hn ht ho hb
      have hentered : t.acceptOrder (record (some j)) = ((entered t (record (some j))).judgeLane j).takeUp :=
        t.acceptOrder_lane rfl
      exact exec_order_of_answer hs (hx.trans (by rw [← hentered, ← hrecord, ← hstatus]; rfl))

end Sys2Proof.Machine

/-! # The family of the pick ports: SET-PORT and PORT-MODE (R79, R80)

The operands are read first. Each command's answer is then given once per outcome, and the statement follows by placing
the answer as the reply of command 15 or 16. -/

namespace Sys2Proof.Machine

/-! ## The operands -/

theorem underrunDisplayOf?_of_le {u : Nat} (h : u ≤ 2) :
    underrunDisplayOf? u = some (if u = 0 then .idlePattern else if u = 1 then .dark else .holdLast) := by
  match u, h with
  | 0, _ | 1, _ | 2, _ => rfl

theorem underrunDisplayOf?_eq_none {u : Nat} (h : 2 < u) : underrunDisplayOf? u = none := by
  match u, h with
  | _ + 3, _ => rfl

theorem underrunReportOf?_of_le {r : Nat} (h : r ≤ 1) :
    underrunReportOf? r = some (if r = 0 then .every else .firstAfterWork) := by
  match r, h with
  | 0, _ | 1, _ => rfl

theorem underrunReportOf?_eq_none {r : Nat} (h : 1 < r) : underrunReportOf? r = none := by
  match r, h with
  | _ + 2, _ => rfl

theorem portModeOf?_of_le {m : Nat} (h : m ≤ 2) :
    portModeOf? m = some (if m = 0 then .closed else if m = 1 then .pick else .store) := by
  match m, h with
  | 0, _ | 1, _ | 2, _ => rfl

theorem portModeOf?_eq_none {m : Nat} (h : 2 < m) : portModeOf? m = none := by
  match m, h with
  | _ + 3, _ => rfl

theorem clamp_eq_self_iff (low high n : Nat) : clamp low high n = n ↔ low ≤ n ∧ n ≤ high := by
  unfold clamp
  split_ifs <;> omega

/-! ## The port: its sequencer, and a call that it does not make -/

theorem Port.isPlacing_iff (p : Port) : p.isPlacing = true ↔ ∃ x, p.work = .placing x := by
  obtain ⟨_, _, work, _⟩ := p
  cases work <;> simp [Port.isPlacing]

theorem Port.isPlacing_eq_false {p : Port} (h : ∀ x, p.work ≠ .placing x) : p.isPlacing = false := by
  rw [Bool.eq_false_iff, ne_eq, p.isPlacing_iff]
  exact fun ⟨x, hx⟩ => h x hx

theorem State.makeCall_of_not_idle {s : State} {k : Nat} (h : (s.port k).work ≠ .idle) : s.makeCall k = s :=
  if_neg fun ⟨hidle, _⟩ => h hidle

/-- A display is rebuilt without a change of the sequencer state. -/
theorem State.rebuild_port_work (s : State) (k : Nat) : ((s.rebuild k).port k).work = (s.port k).work := by
  unfold State.rebuild
  split
  · rfl
  · rw [State.onPort_same]

/-! ## SET-PORT: the settings in range, and the three ends of R79 -/

/-- The state with R79's settings taken from the operands: the timeout in range, the absent flag cleared. -/
def State.takeSettings (s : State) (k : Nat) (auto hints : Bool) (u r timeout : Nat) : State :=
  s.onPort k fun p => { p with
    autoCall := auto, emptyHints := hints,
    underrunDisplay := if u = 0 then .idlePattern else if u = 1 then .dark else .holdLast,
    underrunReport := if r = 0 then .every else .firstAfterWork,
    timeout := max 10 (min timeout 900), absent := false }

/-- The settings taken are those the model writes once it has read the operands. -/
theorem State.onPort_withSettings (s : State) (k : Nat) (auto hints : Bool) (u r timeout : Nat) :
    s.onPort k (fun p => p.withSettings auto hints
      (if u = 0 then .idlePattern else if u = 1 then .dark else .holdLast)
      (if r = 0 then .every else .firstAfterWork) (clamp 10 900 timeout)) =
      s.takeSettings k auto hints u r timeout := by
  rw [clamp_eq_max_min (by decide)]
  rfl

theorem State.takeSettings_port_work (s : State) (k : Nat) (auto hints : Bool) (u r timeout : Nat) :
    ((s.takeSettings k auto hints u r timeout).port k).work = (s.port k).work := by
  rw [State.takeSettings, State.onPort_same]

theorem State.takeSettings_port_isPlacing (s : State) (k : Nat) (auto hints : Bool) (u r timeout : Nat) :
    ((s.takeSettings k auto hints u r timeout).port k).isPlacing = (s.port k).isPlacing := by
  rw [Port.isPlacing, State.takeSettings_port_work, Port.isPlacing]

section
variable {s : State} {k u r timeout : Nat} {auto hints : Bool}

theorem setPortAnswer_invalid (h : 7 < k ∨ 2 < u ∨ 1 < r) :
    setPortAnswer k auto hints u r timeout s = s.refuse .badArgument := by
  unfold setPortAnswer
  split
  next hu hr =>
    have hk : 7 < k := by
      obtain hk | hbad | hbad := h
      · exact hk
      · rw [underrunDisplayOf?_eq_none hbad] at hu; cases hu
      · rw [underrunReportOf?_eq_none hbad] at hr; cases hr
    exact if_pos hk
  next => rfl

section
variable (hk : k ≤ 7) (hu : u ≤ 2) (hr : r ≤ 1)
include hk hu hr

/-- With its operands in range SET-PORT takes the settings, rebuilds the display of a PLACING port and, where it turns
auto-call on, makes a call. -/
theorem setPortAnswer_valid :
    setPortAnswer k auto hints u r timeout s =
      let t := s.takeSettings k auto hints u r timeout
      let shown := if (s.port k).isPlacing then t.rebuild k else t
      ⟨if auto && !(s.port k).autoCall then shown.makeCall k else shown,
        if 10 ≤ timeout ∧ timeout ≤ 900 then .done else .clamped, []⟩ := by
  simp only [setPortAnswer, underrunDisplayOf?_of_le hu, underrunReportOf?_of_le hr, if_neg hk.not_gt,
    State.onPort_withSettings, State.takeSettings_port_isPlacing, clamp_eq_self_iff]

/-- A PLACING port is not IDLE, so its display is rebuilt and auto-call turned on makes no call. -/
theorem setPortAnswer_placing {x : Nat} (hx : (s.port k).work = .placing x) :
    setPortAnswer k auto hints u r timeout s =
      ⟨(s.takeSettings k auto hints u r timeout).rebuild k,
        if 10 ≤ timeout ∧ timeout ≤ 900 then .done else .clamped, []⟩ := by
  have hplacing : (s.port k).isPlacing = true := (s.port k).isPlacing_iff.2 ⟨x, hx⟩
  have hcall : ((s.takeSettings k auto hints u r timeout).rebuild k).makeCall k =
      (s.takeSettings k auto hints u r timeout).rebuild k := by
    apply State.makeCall_of_not_idle
    rw [State.rebuild_port_work, State.takeSettings_port_work, hx]
    exact PortWork.noConfusion
  rw [setPortAnswer_valid hk hu hr]
  simp only [hplacing, if_true, hcall, ite_self]

theorem setPortAnswer_calls (hx : ∀ x, (s.port k).work ≠ .placing x) (hauto : auto = true)
    (hcall : (s.port k).autoCall = false) :
    setPortAnswer k auto hints u r timeout s =
      ⟨(s.takeSettings k auto hints u r timeout).makeCall k,
        if 10 ≤ timeout ∧ timeout ≤ 900 then .done else .clamped, []⟩ := by
  have hplacing := Port.isPlacing_eq_false hx
  simp [setPortAnswer_valid hk hu hr, hplacing, hauto, hcall]

theorem setPortAnswer_noCall (hx : ∀ x, (s.port k).work ≠ .placing x)
    (hcall : auto = false ∨ (s.port k).autoCall = true) :
    setPortAnswer k auto hints u r timeout s =
      ⟨s.takeSettings k auto hints u r timeout,
        if 10 ≤ timeout ∧ timeout ≤ 900 then .done else .clamped, []⟩ := by
  have hplacing := Port.isPlacing_eq_false hx
  have hturned : (auto && !(s.port k).autoCall) = false := by
    obtain h | h := hcall <;> simp [h]
  simp [setPortAnswer_valid hk hu hr, hplacing, hturned]

end

theorem exec_setPort_of_answer {t : State} (hs : s.accepts) {src : Nat} {status : Status} {data : List Byte}
    (hx : setPortAnswer k auto hints u r timeout s = ⟨t, status, data⟩) :
    exec (.setPort src k auto hints u r timeout) s =
      .next (State.finish s (t.placeReply src 15 status data)) :=
  command_of_answer hs hx

end

/-! ## PORT-MODE: refused, applied or deferred -/

section
variable {s : State} {k m : Nat}

theorem portModeAnswer_invalid (h : 7 < k ∨ 2 < m) : portModeAnswer k m s = s.refuse .badArgument := by
  unfold portModeAnswer
  split
  next => rfl
  next hm =>
    have hk : 7 < k := by
      obtain hk | hbad := h
      · exact hk
      · rw [portModeOf?_eq_none hbad] at hm; cases hm
    exact if_pos hk

section
variable {mode : PortModeName} (hk : k ≤ 7) (hm : portModeOf? m = some mode)
include hk hm

theorem portModeAnswer_unusable (h : ¬((s.carousel k).port ≠ none ∧ (s.port k).absent = false)) :
    portModeAnswer k m s = s.refuse .refusedState := by
  have hbad : ((s.carousel k).port.isNone || (s.port k).absent) = true := by
    rw [Bool.or_eq_true, Option.isNone_iff_eq_none, ← Bool.not_eq_false]
    tauto
  simp only [portModeAnswer, hm, if_neg hk.not_gt, if_pos hbad]

variable (h : (s.carousel k).port ≠ none ∧ (s.port k).absent = false)
include h

/-- At a usable port the mode is applied or deferred by the sequencer state alone. -/
theorem portModeAnswer_usable :
    portModeAnswer k m s =
      if (s.port k).work = .idle then
        ⟨((s.onPort k (fun p => { p with mode := mode, pendingMode := none })).darken k .none).autoCall k, .done,
          appliedMark⟩
      else
        ⟨s.onPort k (fun p => { p with pendingMode := if mode = p.mode then none else some mode }), .done,
          deferredMark⟩ := by
  obtain ⟨hport, habsent⟩ := h
  simp [portModeAnswer, hm, hk.not_gt, hport, habsent]

theorem portModeAnswer_idle (hw : (s.port k).work = .idle) :
    portModeAnswer k m s =
      ⟨((s.onPort k (fun p => { p with mode := mode, pendingMode := none })).darken k .none).autoCall k, .done,
        appliedMark⟩ := by
  rw [portModeAnswer_usable hk hm h, if_pos hw]

theorem portModeAnswer_busy (hw : (s.port k).work ≠ .idle) :
    portModeAnswer k m s =
      ⟨s.onPort k (fun p => { p with pendingMode := if mode = p.mode then none else some mode }), .done,
        deferredMark⟩ := by
  rw [portModeAnswer_usable hk hm h, if_neg hw]

end

theorem exec_portMode_of_answer {t : State} (hs : s.accepts) {src : Nat} {status : Status} {data : List Byte}
    (hx : portModeAnswer k m s = ⟨t, status, data⟩) :
    exec (.portMode src k m) s = .next (State.finish s (t.placeReply src 16 status data)) :=
  command_of_answer hs hx

end

/-- Settles O29: each command's clauses from its answer, the refusals first. -/
theorem portSettingsAndModeAreTaken : Obligations.PortSettingsAndModeAreTaken := by
  refine ⟨fun s src k u r timeout auto hints hs => ⟨fun h => ?setInvalid, fun hk hu hr => ⟨?placing, ?calls, ?noCall⟩⟩,
    fun s src k m hs => ⟨fun h => ?modeInvalid, fun hk hm h => ?unusable, fun hk hm h hw => ?applied,
      fun hk hm h hw => ?deferred⟩⟩
  case setInvalid => exact exec_setPort_of_answer hs (setPortAnswer_invalid h)
  case placing =>
    intro x hx
    exact exec_setPort_of_answer hs (setPortAnswer_placing hk hu hr hx)
  case calls =>
    intro hx hauto hcall
    exact exec_setPort_of_answer hs (setPortAnswer_calls hk hu hr hx hauto hcall)
  case noCall =>
    intro hx hcall
    exact exec_setPort_of_answer hs (setPortAnswer_noCall hk hu hr hx hcall)
  case modeInvalid => exact exec_portMode_of_answer hs (portModeAnswer_invalid h)
  case unusable => exact exec_portMode_of_answer hs (portModeAnswer_unusable hk (portModeOf?_of_le hm) h)
  case applied => exact exec_portMode_of_answer hs (portModeAnswer_idle hk (portModeOf?_of_le hm) h hw)
  case deferred => exact exec_portMode_of_answer hs (portModeAnswer_busy hk (portModeOf?_of_le hm) h hw)

end Sys2Proof.Machine

/-! # The family of the consolidation lanes: SET-LANES, LANE-CLEAR-FOREIGN and readiness (R102, R112, R113)

What the two commands ask and what makes a lane fit are first read as propositions. The answers and the judgement of a
lane follow case by case. -/

namespace Sys2Proof.Machine

/-! ## SET-LANES: its two checks, and its answer -/

theorem State.nodeAllowed_iff (s : State) (node : Nat) :
    s.nodeAllowed node = true ↔ 1 ≤ node ∧ node ≤ 62 ∧ node ≠ s.address := by
  simp [State.nodeAllowed, and_assoc]

/-- The nodes R102 refuses: those that are no field node's address, and those that a carousel uses. -/
theorem State.conveyorNodeRefused_iff (s : State) (node : Nat) :
    (!s.nodeAllowed node || carouselNumbers.any (fun k => (s.carousel k).usesNode node)) = true ↔
      ¬(1 ≤ node ∧ node ≤ 62 ∧ node ≠ s.address ∧ ∀ k < 8, (s.carousel k).usesNode node = false) := by
  rw [← not_iff_not, not_not, Bool.not_eq_true, Bool.or_eq_false_iff, Bool.not_eq_false', s.nodeAllowed_iff,
    List.any_eq_false]
  simp [carouselNumbers, and_assoc]

theorem State.someLaneOpening_iff (s : State) :
    laneNumbers.any (fun j => (s.lane j).state = .opening) = true ↔ ¬∀ j < 24, (s.lane j).state ≠ .opening := by
  simp [laneNumbers]

section
variable {s : State} {node timeout : Nat}

theorem setLanesAnswer_invalid
    (h : ¬(1 ≤ node ∧ node ≤ 62 ∧ node ≠ s.address ∧ ∀ k < 8, (s.carousel k).usesNode node = false)) :
    setLanesAnswer node timeout s = s.refuse .badArgument :=
  if_pos ((s.conveyorNodeRefused_iff node).2 h)

section
variable (h : 1 ≤ node ∧ node ≤ 62 ∧ node ≠ s.address ∧ ∀ k < 8, (s.carousel k).usesNode node = false)
include h

theorem setLanesAnswer_opening (ho : ¬∀ j < 24, (s.lane j).state ≠ .opening) :
    setLanesAnswer node timeout s = s.refuse .refusedState := by
  have hnode := mt (s.conveyorNodeRefused_iff node).1 (not_not.2 h)
  rw [setLanesAnswer, if_neg hnode, if_pos (s.someLaneOpening_iff.2 ho)]

theorem setLanesAnswer_valid (ho : ∀ j < 24, (s.lane j).state ≠ .opening) :
    setLanesAnswer node timeout s =
      ⟨{ s with lanes := { s.lanes with conveyor := some node, transitTimeout := max 10 (min timeout 1800) } },
        if 10 ≤ timeout ∧ timeout ≤ 1800 then .done else .clamped, []⟩ := by
  have hnode := mt (s.conveyorNodeRefused_iff node).1 (not_not.2 h)
  have hopening := mt s.someLaneOpening_iff.1 (not_not.2 ho)
  rw [setLanesAnswer, if_neg hnode, if_neg hopening]
  simp only [clamp_eq_self_iff]
  rw [clamp_eq_max_min (by decide)]

end

theorem exec_setLanes_of_answer {t : State} (hs : s.accepts) {src : Nat} {status : Status} {data : List Byte}
    (hx : setLanesAnswer node timeout s = ⟨t, status, data⟩) :
    exec (.setLanes src node timeout) s = .next (State.finish s (t.placeReply src 27 status data)) :=
  command_of_answer hs hx

end

/-! ## LANE-CLEAR-FOREIGN -/

section
variable {s : State} {j : Nat}

theorem laneClearAnswer_noLane (h : 23 < j) : laneClearAnswer j s = s.refuse .badArgument := if_pos h

theorem laneClearAnswer_lane (h : j ≤ 23) :
    laneClearAnswer j s =
      ⟨(s.onLane j (fun l => { l with foreign := 0 })).judgeLane j, .done, be1 (s.lane j).foreign⟩ :=
  if_neg h.not_gt

theorem exec_laneClearForeign_of_answer {t : State} (hs : s.accepts) {src : Nat} {status : Status} {data : List Byte}
    (hx : laneClearAnswer j s = ⟨t, status, data⟩) :
    exec (.laneClearForeign src j) s = .next (State.finish s (t.placeReply src 29 status data)) :=
  command_of_answer hs hx

end

/-! ## Readiness -/

theorem OrderState.finished_iff (x : OrderState) :
    x.finished = true ↔ x = .complete ∨ x = .cancelled ∨ x = .shortClosed := by
  cases x <;> simp [OrderState.finished]

/-- R113's four conditions; a bound order that the table no longer holds does not keep its lane from release. -/
theorem State.laneFit_iff (s : State) (j : Nat) :
    s.laneFit j = true ↔ (s.lane j).closed = true
      ∧ (∀ id ∈ (s.lane j).bound, ∀ o, s.findOrder id = some o →
          o.state = .complete ∨ o.state = .cancelled ∨ o.state = .shortClosed)
      ∧ (∀ e ∈ (s.lane j).expected, e.state = .arrived ∨ e.state = .late) ∧ (s.lane j).foreign = 0 := by
  simp only [State.laneFit, Bool.and_eq_true, List.all_eq_true, Bool.or_eq_true, decide_eq_true_eq, and_assoc]
  refine and_congr_right fun _ => and_congr_left fun _ => forall₂_congr fun id _ => ?_
  cases s.findOrder id with
  | none => simp
  | some o => simp [o.state.finished_iff]

section
variable {s : State} {j : Nat}

theorem State.judgeLane_filling_fit (hl : (s.lane j).state = .filling) (hf : s.laneFit j = true) :
    s.judgeLane j = (s.onLane j (fun l => { l with state := .ready })).notify
      (.laneReady j (s.lane j).chain (s.lane j).bound.length ((s.lane j).countIn .arrived)
        ((s.lane j).countIn .late)) := by
  simp only [State.judgeLane, hl, hf, if_true]

theorem State.judgeLane_filling_unfit (hl : (s.lane j).state = .filling) (hf : ¬s.laneFit j = true) :
    s.judgeLane j = s := by
  simp only [State.judgeLane, hl, if_neg hf]

theorem State.judgeLane_ready_fit (hl : (s.lane j).state = .ready) (hf : s.laneFit j = true) :
    s.judgeLane j = s := by
  simp only [State.judgeLane, hl, hf, if_true]

theorem State.judgeLane_ready_unfit (hl : (s.lane j).state = .ready) (hf : ¬s.laneFit j = true) :
    s.judgeLane j = s.onLane j (fun l => { l with state := .filling }) := by
  simp only [State.judgeLane, hl, if_neg hf]

theorem State.judgeLane_free (hl : (s.lane j).state = .free) : s.judgeLane j = s := by
  simp only [State.judgeLane, hl]

theorem State.judgeLane_opening (hl : (s.lane j).state = .opening) : s.judgeLane j = s := by
  simp only [State.judgeLane, hl]

end

/-- Settles O38: each command's clauses from its answer, the refusals first; then readiness by the lane's state and
R113's conditions. -/
theorem laneSettingsForeignCountsAndReadiness : Obligations.LaneSettingsForeignCountsAndReadiness := by
  refine ⟨⟨fun s src node timeout hs =>
        ⟨fun h => ?nodeRefused, fun h ho => ?laneOpening, fun h ho => ?settingsTaken⟩,
      fun s src j hs => ⟨fun h => ?noLane, fun h => ?cleared⟩⟩,
    fun s j => ?readiness⟩
  case nodeRefused => exact exec_setLanes_of_answer hs (setLanesAnswer_invalid h)
  case laneOpening => exact exec_setLanes_of_answer hs (setLanesAnswer_opening h ho)
  case settingsTaken => exact exec_setLanes_of_answer hs (setLanesAnswer_valid h ho)
  case noLane => exact exec_laneClearForeign_of_answer hs (laneClearAnswer_noLane h)
  case cleared => exact exec_laneClearForeign_of_answer hs (laneClearAnswer_lane h)
  case readiness =>
    intro l fit
    have hfit : s.laneFit j = true ↔ fit := s.laneFit_iff j
    refine ⟨fun hl hf => State.judgeLane_filling_fit hl (hfit.2 hf),
      fun hl hf => State.judgeLane_ready_unfit hl (mt hfit.1 hf), ?unchanged⟩
    rintro (⟨hl, hf⟩ | ⟨hl, hf⟩ | hl | hl)
    · exact State.judgeLane_filling_unfit hl (mt hfit.1 hf)
    · exact State.judgeLane_ready_fit hl (hfit.2 hf)
    · exact State.judgeLane_free hl
    · exact State.judgeLane_opening hl

end Sys2Proof.Machine

/-! # The family of the invariants: what every step keeps

A relation between states that each kind of work has, and that chains, holds across every step. The invariants of the
queues, the banks, the counters and the tables are one such relation (`Keeps`); that the nodes stay distinct is
another. -/

namespace Sys2Proof.Machine

/-! ## A relation that every step has -/

/-- A relation that chains, that the blocks' own work and the line have, and that every command that arrives has. -/
structure StepRelation (R : State → State → Prop) : Prop where
  refl : ∀ s, R s s
  trans : ∀ {s t u}, R s t → R t u → R s u
  work : ∀ {s t}, Work s t → R s t
  arbitrate : ∀ s, R s s.arbitrate
  issue : ∀ s src p {f : State → Answer}, (∃ c, f = answerTo c) ∨ f = payloadAnswer src p → R s (s.issue src p f)
  issueBroadcast : ∀ s src p w y, R s (s.issueBroadcast src p (fun u => u.broadcastCalendar w y))
  session : ∀ s x, R s (s.setSession x)
  receive : ∀ s t check, R s (s.receive t check)
  endTransmission : ∀ s, R s s.endTransmission
  frameError : ∀ s, R s s.countFrameError
  held : ∀ s, R s s.heldInReset
  poweredOn : ∀ s adr svc, R s (s.poweredOn adr svc)
  tick : ∀ s, R s s.tick
  pending : ∀ s cs, R s { s with pending := cs }

namespace StepRelation

variable {R : State → State → Prop} (hR : StepRelation R)
include hR

theorem finish (s₀ s : State) : R s (State.finish s₀ s) :=
  hR.trans (hR.work ((idleTests_work s₀ s).trans (showDisplays_work s₀ _))) (hR.arbitrate _)

theorem served {f : State → State} {s t : State} (hf : R s (f s)) (e : served f s = .next t) : R s t := by
  obtain ⟨-, e⟩ | ⟨-, e⟩ := served_next e <;> rw [e]
  · exact hR.trans hf (hR.finish s (f s))
  · exact hR.refl s

theorem event {c : Instr} {f : State → State} {s t : State} (hf : R s (f (s.take c))) (e : event c f s = .next t) :
    R s t :=
  hR.served (f := fun u => f (u.take c)) hf e

theorem lineEvent {f : State → State} {s t : State} (hf : R s (f s)) (e : lineEvent f s = .next t) : R s t := by
  obtain ⟨-, e⟩ | ⟨-, e⟩ := lineEvent_next e <;> rw [e]
  · exact hR.trans hf (hR.finish s (f s))
  · exact hR.refl s

theorem sessionExpiry (s : State) : R s s.sessionExpiry := by
  obtain e | h := sessionExpiry_work s
  · rw [e]; exact hR.refl s
  · exact hR.trans (hR.session s none) (hR.work h)

/-- A row at a block: the event leaves those handed, and the block does its work. -/
theorem atBlock {c : Instr} (h : c.atBlock = true) {s t : State} (e : exec c s = .next t) : R s t := by
  have taken : R s (s.take c) := hR.work (Work.refl.handed _)
  by_cases hc : c = .sessionTimerExpiry
  · subst hc
    rw [exec_sessionTimerExpiry] at e
    exact hR.event (hR.trans taken (hR.sessionExpiry _)) e
  · obtain ⟨f, hf, hw⟩ := atBlock_work h hc
    rw [hf] at e
    exact hR.event (hR.trans taken (hR.work (hw _))) e

/-- A command row arrives at the intake. -/
theorem command {c : Instr} {src : Nat} (h : c.commandSource = some src) {s t : State} (e : exec c s = .next t) :
    R s t := by
  by_cases hb : ∃ p, c = .badCommandNumber src p
  · obtain ⟨p, rfl⟩ := hb
    exact hR.served (f := fun u => u.issue src p (payloadAnswer src p)) (hR.issue s src p (.inr rfl)) e
  · rw [exec_command h (fun p hp => hb ⟨p, hp⟩)] at e
    exact hR.served (f := fun u => u.issue src (commandPayload c) (answerTo c))
      (hR.issue s src _ (.inl ⟨c, rfl⟩)) e

/-- Every row has the relation: a row of the pins or the line, a command row, or a row at a block. -/
theorem exec {c : Instr} {s t : State} (e : exec c s = .next t) : R s t := by
  cases c with
  | resetAsserted => cases e; exact hR.held s
  | powerOn adr svc => cases e; exact hR.poweredOn s adr svc
  | frameError => exact hR.lineEvent (f := State.countFrameError) (hR.frameError s) e
  | telegramReceived telegram check => exact hR.lineEvent (f := fun u => u.receive telegram check) (hR.receive s _ _) e
  | transmissionComplete => exact hR.lineEvent (f := State.endTransmission) (hR.endTransmission s) e
  | setCalendarBroadcast src w y =>
    exact hR.served (f := fun u => u.issueBroadcast src (commandPayload (.setCalendarBroadcast src w y))
      (fun v => v.broadcastCalendar w y)) (hR.issueBroadcast s src _ w y) e
  | _ => first | exact hR.atBlock rfl e | exact hR.command rfl e

theorem idleStep {s t : State} (e : idleStep s = .next t) : R s t := by
  unfold Machine.idleStep at e
  split at e
  · cases e; exact hR.refl s
  · split at e
    · split at e
      · exact hR.exec e
      · cases e; exact hR.tick s
    · split at e
      · exact hR.exec e
      · cases e; exact hR.tick s

theorem step {s t : State} (e : step s = .next t) : R s t := by
  unfold Machine.step at e
  split at e
  · exact hR.trans (hR.pending s _) (hR.exec e)
  · exact hR.idleStep e

end StepRelation

/-! ## The queues, banks, counters and tables -/

/-- A change of what no invariant speaks of. -/
theorem Keeps.of_eq {s t : State} (hf : t.ring.forward = s.ring.forward) (hq : t.ring.field = s.ring.field)
    (hr : t.ring.replies = s.ring.replies) (hn : t.ring.notices = s.ring.notices)
    (hc : t.ring.counters = s.ring.counters) (hi : t.command.intake = s.command.intake)
    (ht : TablesOk s → TablesOk t) (hp : t.activeBank = s.activeBank) (hs : t.stock.slots = s.stock.slots) :
    Keeps s t where
  forward := by rw [hf]; exact id
  field := by rw [hq]; exact id
  replies := by rw [hr]; exact id
  notices := by rw [hn]; exact id
  intake := by rw [hi]; exact id
  counters := by rw [hc]; exact id
  tables := ht
  bank := by unfold ActiveBankValid; rw [hp]; exact id
  tags := fun _ h => h.of_eq hs

theorem saturate_le {limit n : Nat} : saturate limit n ≤ limit := by
  unfold saturate; split <;> omega

/-- A counter of the line that rises stays in range (R147). -/
theorem count_keeps (s : State) {f : Counters → Counters} (hf : ∀ c, CountersOk c → CountersOk (f c)) :
    Keeps s (s.count f) :=
  ⟨id, id, id, id, id, hf _, fun h => h.of_eq rfl rfl rfl rfl rfl, id, fun _ h => h.of_eq rfl⟩

theorem countCheckError_keeps (s : State) : Keeps s s.countCheckError :=
  count_keeps s fun _ h => { h with checkErrors := saturate_le }
theorem countFrameError_keeps (s : State) : Keeps s s.countFrameError :=
  count_keeps s fun _ h => { h with frameErrors := saturate_le }
theorem countHopExpiry_keeps (s : State) : Keeps s s.countHopExpiry :=
  count_keeps s fun _ h => { h with hopExpiries := saturate_le }
theorem countOverrun_keeps (s : State) : Keeps s s.countOverrun :=
  count_keeps s fun _ h => { h with forwardOverruns := saturate_le }
theorem countReturn_keeps (s : State) : Keeps s s.countReturn :=
  count_keeps s fun _ h => { h with returns := saturate_le }
theorem countGuarded_keeps (s : State) : Keeps s s.countGuarded :=
  count_keeps s fun _ h => { h with guarded := saturate_le }
theorem countDiscard_keeps (s : State) : Keeps s s.countDiscard :=
  count_keeps s fun _ h => { h with discards := saturate_le }

theorem hand_keeps (s : State) (cs : List Instr) : Keeps s (s.hand cs) := (Work.refl.handed _).sound.keeps

/-- A telegram joins the forward queue only while fewer than 8 stand there (R142). -/
theorem forwardJoin_keeps (s : State) (t : Telegram) : Keeps s (s.forwardJoin t) := by
  unfold State.forwardJoin
  split
  · exact countOverrun_keeps s
  · exact ⟨fun _ => by simp; omega, id, id, id, id, id, fun h => h.of_eq rfl rfl rfl rfl rfl, id,
      fun _ h => h.of_eq rfl⟩

theorem deliver_keeps (s : State) (e : Option (Option Instr)) {f : State → State} (hf : Keeps s (f s)) :
    Keeps s (s.deliver e f) := by
  unfold State.deliver
  split
  · exact hand_keeps s _
  · exact countDiscard_keeps s
  · exact hf

theorem guardedTelegram_keeps (s : State) (k : CarouselNo) (t : Telegram) : Keeps s (s.guardedTelegram k t) := by
  unfold State.guardedTelegram
  split
  · exact forwardJoin_keeps s t
  · exact (forwardJoin_keeps s t).trans (hand_keeps _ _)
  · exact countGuarded_keeps s
  · exact countGuarded_keeps s

theorem dispose_keeps (s : State) (t : Telegram) : Keeps s (s.dispose t) := by
  unfold State.dispose
  dsimp only
  split
  · exact forwardJoin_keeps s t
  · exact deliver_keeps s _ (countDiscard_keeps s)
  · exact (forwardJoin_keeps s t).trans (deliver_keeps _ _ (.refl _))
  · exact countDiscard_keeps s

theorem classify_keeps (s : State) (t : Telegram) : Keeps s (s.classify t) := by
  unfold State.classify
  split
  · exact guardedTelegram_keeps s _ t
  · exact dispose_keeps s t

theorem takeAddressed_keeps (s : State) (t : Telegram) : Keeps s (s.takeAddressed t) := by
  unfold State.takeAddressed
  split
  · exact (intakeJoin_keeps s _).trans (pumpAll_keeps _)
  · exact countDiscard_keeps s

theorem takeBroadcastTelegram_keeps (s : State) (t : Telegram) : Keeps s (s.takeBroadcastTelegram t) := by
  unfold State.takeBroadcastTelegram
  split
  · exact ((forwardJoin_keeps s t).trans (intakeJoin_keeps _ _)).trans (pumpAll_keeps _)
  · exact forwardJoin_keeps s t

theorem takeGood_keeps (s : State) (t : Telegram) : Keeps s (s.takeGood t) := by
  unfold State.takeGood
  split_ifs
  · exact (countReturn_keeps s).trans (hand_keeps _ _)
  · exact countHopExpiry_keeps s
  · exact takeAddressed_keeps s t
  · exact takeBroadcastTelegram_keeps s t
  · exact classify_keeps s t

theorem receive_keeps (s : State) (t : Telegram) (check : BitVec 16) : Keeps s (s.receive t check) := by
  unfold State.receive State.repeatGood
  split_ifs
  · exact countFrameError_keeps s
  · exact countCheckError_keeps s
  · exact takeGood_keeps s t
  · exact countHopExpiry_keeps s
  · exact forwardJoin_keeps s t

theorem endTransmission_keeps (s : State) : Keeps s s.endTransmission := by
  unfold State.endTransmission
  split
  · exact .refl s
  · refine Keeps.trans (Keeps.trans ?_ (arbitrate_sound _).keeps) (pumpAll_keeps _)
    exact .of_eq rfl rfl rfl rfl rfl rfl (fun h => h.of_eq rfl rfl rfl rfl rfl) rfl rfl

theorem poweredOn_keeps (s : State) (adr : Nat) (svc : Bool) : Keeps s (s.poweredOn adr svc) := by
  have fresh := (fresh_sound s (adr % 64) svc).keeps
  unfold State.poweredOn
  dsimp only
  split
  · exact (fresh.trans (Work.refl.notify _).sound.keeps).trans (arbitrate_sound _).keeps
  · exact fresh

theorem tickTimer_eq_none {t : Option Nat} : tickTimer t = none ↔ t = none := by
  cases t <;> simp [tickTimer]

/-- A millisecond makes no carousel's record the one of a carousel that is not listed. -/
theorem Carousel.tick_proper (c : Carousel) (h : c ≠ {}) : c.tick ≠ {} := by
  contrapose! h
  cases c
  simp_all [Carousel.tick, tickTimer_eq_none]

theorem Port.tick_proper (p : Port) (h : p ≠ {}) : p.tick ≠ {} := by
  contrapose! h
  cases p
  simp_all [Port.tick, tickTimer_eq_none]

theorem Lane.tick_proper (l : Lane) (h : l ≠ {}) : l.tick ≠ {} := by
  contrapose! h
  cases l
  simp_all [Lane.tick]

theorem tick_keeps (s : State) : Keeps s s.tick :=
  .of_eq rfl rfl rfl rfl rfl rfl (fun h =>
    ⟨h.slots, sparseCanonical_map Carousel.tick_proper h.carousels, sparseCanonical_map Port.tick_proper h.ports,
      sparseCanonical_map Lane.tick_proper h.lanes, h.records⟩) rfl rfl

theorem keeps_stepRelation : StepRelation Keeps where
  refl := .refl
  trans := .trans
  work h := h.sound.keeps
  arbitrate s := (arbitrate_sound s).keeps
  issue s src p f hf := by
    refine issue_keeps s src p ?_
    obtain ⟨c, rfl⟩ | rfl := hf
    · exact answerTo_sound c s
    · exact payloadAnswer_sound src p s
  issueBroadcast s src p w y := issueBroadcast_keeps s src p (broadcastCalendar_sound w y s)
  session s x := (Sound.setSession s x).keeps
  receive := receive_keeps
  endTransmission := endTransmission_keeps
  frameError := countFrameError_keeps
  held _ := .of_eq rfl rfl rfl rfl rfl rfl (fun h => h.of_eq rfl rfl rfl rfl rfl) rfl rfl
  poweredOn := poweredOn_keeps
  tick := tick_keeps
  pending _ _ := .of_eq rfl rfl rfl rfl rfl rfl (fun h => h.of_eq rfl rfl rfl rfl rfl) rfl rfl

/-- Settles O5: each queue by what `Keeps` says of it. -/
theorem everyStepKeepsTheQueues : Obligations.EveryStepKeepsTheQueues := by
  intro s t hq e
  have h := keeps_stepRelation.step e
  exact ⟨h.forward hq.forward, h.field hq.field, h.replies hq.replies, h.notices hq.notices, h.intake hq.intake⟩

/-- Settles O6: the banks, the counters, the tables and the tags by what `Keeps` says of them. -/
theorem everyStepKeepsBanksCountersAndTables : Obligations.EveryStepKeepsBanksCountersAndTables :=
  ⟨fun _ _ hb e => (keeps_stepRelation.step e).bank hb,
    fun _ _ e => ⟨(keeps_stepRelation.step e).counters, (keeps_stepRelation.step e).tables⟩,
    fun _ _ ht hd e => (keeps_stepRelation.step e).tags ht hd⟩

/-! ## The configured nodes (R140) -/

/-- Each carousel's three nodes and the conveyor are as they were. -/
structure SameNodes (s t : State) : Prop where
  drive : ∀ k, (t.carousel k).drive = (s.carousel k).drive
  port : ∀ k, (t.carousel k).port = (s.carousel k).port
  gate : ∀ k, (t.carousel k).gate = (s.carousel k).gate
  conveyor : t.lanes.conveyor = s.lanes.conveyor

/-- Where the nodes are distinct in `s` they are distinct in `t`. -/
def KeepsNodes (s t : State) : Prop := NodesDistinct s → NodesDistinct t

theorem KeepsNodes.refl (s : State) : KeepsNodes s s := id

theorem KeepsNodes.trans {s t u : State} (h : KeepsNodes s t) (g : KeepsNodes t u) : KeepsNodes s u := g ∘ h

theorem SameNodes.keeps {s t : State} (h : SameNodes s t) : KeepsNodes s t := by
  have uses (k : CarouselNo) (n : Nat) : (t.carousel k).usesNode n = (s.carousel k).usesNode n := by
    simp only [Carousel.usesNode, h.drive, h.port, h.gate]
  intro d
  constructor
  · simpa only [uses] using d.carousels
  · simpa only [h.drive, h.port] using d.driveNotPort
  · simpa only [h.drive, h.gate] using d.driveNotGate
  · simpa only [h.port, h.gate] using d.portNotGate
  · simpa only [uses, h.conveyor] using d.conveyor

/-- A change outside the carousels' records and the lane settings. -/
theorem KeepsNodes.of_eq {s t : State} (hc : ∀ k, t.carousel k = s.carousel k)
    (hl : t.lanes.conveyor = s.lanes.conveyor) : KeepsNodes s t :=
  SameNodes.keeps ⟨fun k => by rw [hc], fun k => by rw [hc], fun k => by rw [hc], hl⟩

theorem Work.keepsNodes {s t : State} (h : Work s t) : KeepsNodes s t := by
  refine SameNodes.keeps ⟨fun k => ?_, fun k => ?_, fun k => ?_, h.untouched.conveyor⟩
  · simpa only [Carousel.fixed] using congrArg Carousel.drive (h.fixed k)
  · simpa only [Carousel.fixed] using congrArg Carousel.port (h.fixed k)
  · simpa only [Carousel.fixed] using congrArg Carousel.gate (h.fixed k)

/-- A change of a carousel's record that leaves its nodes. -/
theorem onCarousel_keepsNodes (s : State) (k : Nat) {f : Carousel → Carousel} (hd : ∀ c, (f c).drive = c.drive)
    (hp : ∀ c, (f c).port = c.port) (hg : ∀ c, (f c).gate = c.gate) : KeepsNodes s (s.onCarousel k f) := by
  refine SameNodes.keeps ⟨fun j => ?_, fun j => ?_, fun j => ?_, rfl⟩ <;> rw [State.onCarousel_read] <;> split <;>
    simp [*]

/-- The nodes R52 allows are three, none the conveyor, and no other carousel uses one. -/
theorem State.nodesAllowed_distinct {s : State} {k d p g : Nat} (h : s.nodesAllowed k d p g = true) :
    (∀ n, n = d ∨ n = p ∨ n = g → s.lanes.conveyor ≠ some n ∧ ∀ j < 8, j ≠ k → (s.carousel j).usesNode n = false)
      ∧ d ≠ p ∧ d ≠ g ∧ p ≠ g := by
  simp only [State.nodesAllowed, carouselNumbers, Bool.and_eq_true, List.all_eq_true, decide_eq_true_eq, List.mem_range,
    Bool.or_eq_true, Bool.not_eq_true'] at h
  obtain ⟨⟨⟨hn, hdp⟩, hdg⟩, hpg⟩ := h
  refine ⟨fun n hmem => ?_, hdp, hdg, hpg⟩
  obtain ⟨⟨-, hconveyor⟩, hothers⟩ := hn n (by simpa using hmem)
  exact ⟨hconveyor, fun j hj hjk => (hothers j hj).resolve_left hjk⟩

/-- A CONFIGURE-CAROUSEL that passes R52's check of the nodes keeps them distinct. -/
theorem configured_keepsNodes {s : State} {k d p g : Nat} (h : s.nodesAllowed k d p g = true) {f : Carousel → Carousel}
    (hd : ∀ c, (f c).drive = some d) (hp : ∀ c, (f c).port = some p) (hg : ∀ c, (f c).gate = some g) :
    KeepsNodes s (s.onCarousel k f) := by
  obtain ⟨hfree, hdp, hdg, hpg⟩ := State.nodesAllowed_distinct h
  intro hs
  have same (c : Carousel) (n : Nat) : (f c).usesNode n = true ↔ n = d ∨ n = p ∨ n = g := by
    simp only [Carousel.usesNode, hd, hp, hg, Bool.or_eq_true, decide_eq_true_eq, Option.some.injEq]
    tauto
  have read (j : CarouselNo) : ((j : Nat) = k ∧ (s.onCarousel k f).carousel j = f (s.carousel k))
      ∨ ((j : Nat) ≠ k ∧ (s.onCarousel k f).carousel j = s.carousel j) := by
    rw [State.onCarousel_read]; split <;> simp [*]
  refine ⟨fun i j n hi hj => ?_, fun j n => ?_, fun j n => ?_, fun j n => ?_, fun j n hn => ?_⟩
  · obtain ⟨ik, ei⟩ | ⟨ik, ei⟩ := read i <;> obtain ⟨jk, ej⟩ | ⟨jk, ej⟩ := read j <;> rw [ei] at hi <;> rw [ej] at hj
    · exact Fin.ext (ik.trans jk.symm)
    · have hother := (hfree n ((same _ n).1 hi)).2 j j.isLt jk
      simp [hother] at hj
    · have hother := (hfree n ((same _ n).1 hj)).2 i i.isLt ik
      simp [hother] at hi
    · exact hs.carousels i j n hi hj
  · obtain ⟨-, e⟩ | ⟨-, e⟩ := read j <;> rw [e]
    · rw [hd, hp]; rintro ⟨⟩ ⟨⟩; exact hdp rfl
    · exact hs.driveNotPort j n
  · obtain ⟨-, e⟩ | ⟨-, e⟩ := read j <;> rw [e]
    · rw [hd, hg]; rintro ⟨⟩ ⟨⟩; exact hdg rfl
    · exact hs.driveNotGate j n
  · obtain ⟨-, e⟩ | ⟨-, e⟩ := read j <;> rw [e]
    · rw [hp, hg]; rintro ⟨⟩ ⟨⟩; exact hpg rfl
    · exact hs.portNotGate j n
  · obtain ⟨-, e⟩ | ⟨-, e⟩ := read j <;> rw [e]
    · rw [Bool.eq_false_iff, ne_eq, same]
      exact fun hmem => (hfree n hmem).1 hn
    · exact hs.conveyor j n hn

theorem configure_keepsNodes (k n p : Nat) (b : Bool) (d po g : Nat) (s : State) :
    KeepsNodes s (configureAnswer k n p b d po g s).state := by
  unfold configureAnswer
  dsimp only
  split_ifs with hbad
  · exact .refl s
  · exact .refl s
  · exact .refl s
  all_goals
    have hnodes : s.nodesAllowed k d po g = true := by simp only [not_or, Bool.not_eq_false] at hbad; tauto
    have configured := configured_keepsNodes hnodes (f := fun c => c.configured n p b d po g) (fun _ => rfl)
      (fun _ => rfl) (fun _ => rfl)
  · exact configured
  · exact configured.trans (Work.refl.carriersChanged _).keepsNodes

theorem zoneMap_keepsNodes (k f : Nat) (zs : List Nat) (s : State) : KeepsNodes s (zoneMapAnswer k f zs s).state := by
  unfold zoneMapAnswer
  split
  · exact .refl s
  · dsimp only
    refine KeepsNodes.trans ?_ (Work.refl.zonesChanged k).keepsNodes
    apply onCarousel_keepsNodes <;> exact fun _ => rfl

theorem timing_keepsNodes (k : Nat) (o : Bool) (v d i b : Nat) (s : State) :
    KeepsNodes s (timingAnswer k o v d i b s).state := by
  unfold timingAnswer
  split
  · exact .refl s
  · dsimp only
    apply onCarousel_keepsNodes <;> exact fun _ => rfl

/-- A SET-LANES gives the conveyor a node that no carousel uses (R102). -/
theorem setLanes_keepsNodes (n timeout : Nat) (s : State) : KeepsNodes s (setLanesAnswer n timeout s).state := by
  unfold setLanesAnswer
  split
  · exact .refl s
  · split
    · exact .refl s
    · rename_i hnode _
      rw [State.conveyorNodeRefused_iff, not_not] at hnode
      obtain ⟨-, -, -, hfree⟩ := hnode
      refine fun hs => { hs with conveyor := fun k m hm => ?_ }
      cases hm
      exact hfree k k.isLt

theorem setSession_keepsNodes (s : State) (x : Option Session) : KeepsNodes s (s.setSession x) :=
  .of_eq (fun _ => rfl) rfl

theorem setShadowBank_keepsNodes (s : State) (b : Bank) : KeepsNodes s (s.setShadowBank b) :=
  .of_eq (by simp) (by simp)

theorem setShadowBank_setSession_keepsNodes (s : State) (b : Bank) (x : Option Session) :
    KeepsNodes s ((s.setShadowBank b).setSession x) :=
  (setShadowBank_keepsNodes s b).trans (setSession_keepsNodes _ x)

theorem bankCopy_keepsNodes (s : State) : KeepsNodes s (bankCopyAnswer s).state := by
  unfold bankCopyAnswer
  split
  · exact .refl s
  · exact setShadowBank_keepsNodes s _

theorem loadOpen_keepsNodes (src t m : Nat) (s : State) : KeepsNodes s (loadOpenAnswer src t m s).state := by
  unfold loadOpenAnswer
  repeat' split
  all_goals first | exact .refl s | exact setShadowBank_setSession_keepsNodes s _ _

theorem loadRecord_keepsNodes (src n : Nat) (bytes : List Byte) (s : State) :
    KeepsNodes s (loadRecordAnswer src n bytes s).state := by
  unfold loadRecordAnswer
  split
  · exact .refl s
  · split
    · exact .refl s
    · dsimp only
      generalize (if n = 0 ∨ 4 < n then none else readRecords _ n bytes) = items
      cases items with
      | none => exact setSession_keepsNodes s _
      | some items => exact setShadowBank_setSession_keepsNodes s _ _

theorem loadClose_keepsNodes (src : Nat) (x : BitVec 32) (s : State) :
    KeepsNodes s (loadCloseAnswer src x s).state := by
  unfold loadCloseAnswer
  split
  · exact .refl s
  · split
    · exact .refl s
    · dsimp only
      split
      · exact (setSession_keepsNodes s _).trans (setShadowBank_keepsNodes _ _)
      · exact setSession_keepsNodes s _

theorem bankSwitch_keepsNodes (s : State) : KeepsNodes s (bankSwitchAnswer s).state := by
  unfold bankSwitchAnswer
  split
  · exact .refl s
  · split
    · exact .refl s
    · dsimp only
      refine KeepsNodes.trans ?_ (Work.refl.notify _).keepsNodes
      exact .of_eq (fun _ => rfl) rfl

/-- A part at its power-on values has no node configured. -/
theorem fresh_keepsNodes (s : State) (a : Nat) (high : Bool) : KeepsNodes s (s.fresh a high) := by
  intro _
  constructor
  · intro j k n h; cases h
  · intro k n h; cases h
  · intro k n h; cases h
  · intro k n h; cases h
  · intro k n h; cases h

theorem restartedAll_keepsNodes (s : State) : KeepsNodes s s.restartedAll := by
  refine (KeepsNodes.trans (fresh_keepsNodes s s.address s.serviceHigh) ?_).trans (Work.refl.notify _).keepsNodes
  exact .of_eq (fun _ => rfl) rfl

theorem restartStock_keepsNodes (s : State) : KeepsNodes s s.restartStock := .of_eq (fun _ => rfl) rfl

theorem restartLines_keepsNodes (s : State) : KeepsNodes s s.restartLines := .of_eq (fun _ => rfl) rfl

theorem restartedOps_keepsNodes (s : State) : KeepsNodes s s.restartedOps := by
  unfold State.restartedOps
  extract_lets ports
  have stock : KeepsNodes s s.restartStock := restartStock_keepsNodes s
  have hp : Work s.restartStock ports := (restartMotions_work _).fold fun _ k h => h.onPort k _
  have lines : KeepsNodes ports ports.restartLines := restartLines_keepsNodes ports
  have hl : Work ports.restartLines (carouselNumbers.foldl State.restartAudit ports.restartLines) :=
    Work.refl.fold fun _ k h => restartAudit_work h k
  exact (stock.trans hp.keepsNodes).trans (lines.trans hl.keepsNodes)

theorem restartOps_keepsNodes (s : State) : KeepsNodes s (restartOpsAnswer s).state := by
  unfold restartOpsAnswer
  dsimp only
  exact (restartedOps_keepsNodes s).trans (Work.refl.notify _).keepsNodes

theorem fromNodeZero_keepsNodes (src : Nat) {f : State → Answer} (h : ∀ s, KeepsNodes s (f s).state) (s : State) :
    KeepsNodes s (fromNodeZero src f s).state := by
  unfold fromNodeZero
  split
  · exact h s
  · exact .refl s

theorem broadcastCalendar_keepsNodes (s : State) (w y : Nat) : KeepsNodes s (s.broadcastCalendar w y) := by
  unfold State.broadcastCalendar
  split
  · exact .of_eq (fun _ => rfl) rfl
  · exact .refl s

theorem setCalendar_keepsNodes (w y : Nat) (s : State) : KeepsNodes s (setCalendarAnswer w y s).state := by
  unfold setCalendarAnswer
  split
  · exact .of_eq (fun _ => rfl) rfl
  · exact .refl s

theorem answerTo_keepsNodes (c : Instr) (s : State) : KeepsNodes s (answerTo c s).state := by
  cases c with
  | query src kind a b =>
    show KeepsNodes s (queryAnswer kind a b s).state
    rw [query_state]; exact .refl s
  | readAuditLog => exact (readLog_work s).keepsNodes
  | setCalendar => exact setCalendar_keepsNodes _ _ s
  | setNotices => exact .of_eq (fun _ => rfl) rfl
  | configureCarousel => exact configure_keepsNodes _ _ _ _ _ _ _ s
  | setZoneMap => exact zoneMap_keepsNodes _ _ _ s
  | setTiming => exact timing_keepsNodes _ _ _ _ _ _ s
  | carouselOnline => exact (online_work _ s).keepsNodes
  | carouselOffline => exact (offline_work _ s).keepsNodes
  | clearFault => exact (clearFault_work _ s).keepsNodes
  | reclaim => exact (reclaim_work _ s).keepsNodes
  | replanCarousel => exact (replanCarousel_work _ s).keepsNodes
  | jogRequest => exact (jog_work _ _ _ s).keepsNodes
  | setPort => exact (setPort_work _ _ _ _ _ _ s).keepsNodes
  | portMode => exact (portMode_work _ _ s).keepsNodes
  | loadSlots => exact (loadSlots_work _ s).keepsNodes
  | holdReleaseAccept => exact (holdAccept_work _ s).keepsNodes
  | holdReleaseClear => exact (holdClear_work _ s).keepsNodes
  | holdReleaseSet => exact (holdSet_work _ _ _ _ _ s).keepsNodes
  | bankCopy => exact bankCopy_keepsNodes s
  | loadOpen => exact loadOpen_keepsNodes _ _ _ s
  | loadRecord => exact loadRecord_keepsNodes _ _ _ s
  | loadClose => exact loadClose_keepsNodes _ _ s
  | bankSwitch => exact bankSwitch_keepsNodes s
  | order => exact (order_work _ _ _ _ _ _ _ _ s).keepsNodes
  | orderCancel => exact (cancel_work _ _ s).keepsNodes
  | shortClose => exact (shortClose_work _ _ _ s).keepsNodes
  | setLanes => exact setLanes_keepsNodes _ _ s
  | laneRelease => exact (laneRelease_work _ _ s).keepsNodes
  | laneClearForeign => exact (laneClear_work _ s).keepsNodes
  | auditSet => exact (auditSet_work _ _ _ _ _ s).keepsNodes
  | restartOps => exact fromNodeZero_keepsNodes _ restartOps_keepsNodes s
  | restartAll => exact fromNodeZero_keepsNodes _ (fun s => restartedAll_keepsNodes s) s
  | _ => exact .refl s

theorem payloadAnswer_keepsNodes (src : Nat) (p : List Byte) (s : State) :
    KeepsNodes s (payloadAnswer src p s).state := by
  unfold payloadAnswer
  split
  · exact answerTo_keepsNodes _ s
  · exact .refl s

theorem placed_keepsNodes {s : State} {a : Answer} (h : KeepsNodes s a.state) (src n : Nat) :
    KeepsNodes s (a.placed src n) :=
  h.trans (.of_eq (fun _ => rfl) rfl)

theorem takeCommand_keepsNodes (s : State) (e : IntakeEntry) : KeepsNodes s (s.takeCommand e) := by
  unfold State.takeCommand
  split
  · unfold State.takeBroadcast
    split
    · exact broadcastCalendar_keepsNodes s _ _
    · exact .refl s
    · exact .refl s
  · exact placed_keepsNodes (payloadAnswer_keepsNodes _ _ s) _ _

theorem pump_keepsNodes (n : Nat) (s : State) : KeepsNodes s (s.pump n) := by
  induction n generalizing s with
  | zero => exact .refl s
  | succ n ih =>
    unfold State.pump
    split
    · exact .refl s
    · rename_i e rest _
      split
      · refine (KeepsNodes.trans (t := { s with command := { s.command with intake := rest } }) ?_
          (takeCommand_keepsNodes _ e)).trans (ih _)
        exact .of_eq (fun _ => rfl) rfl
      · exact .refl s

theorem intakeJoin_pumpAll_keepsNodes (s : State) (e : IntakeEntry) : KeepsNodes s (s.intakeJoin e).pumpAll := by
  refine KeepsNodes.trans ?_ (pump_keepsNodes _ _)
  unfold State.intakeJoin
  split
  · refine KeepsNodes.trans ?_ (Work.refl.notify _).keepsNodes
    exact .of_eq (fun _ => rfl) rfl
  · exact .of_eq (fun _ => rfl) rfl

theorem arbitrate_keepsNodes (s : State) : KeepsNodes s s.arbitrate := by
  obtain ⟨r, e, -⟩ := arbitrate_ring s
  rw [e]
  exact .of_eq (fun _ => rfl) rfl

theorem forwardJoin_keepsNodes (s : State) (t : Telegram) : KeepsNodes s (s.forwardJoin t) := by
  unfold State.forwardJoin
  split <;> exact .of_eq (fun _ => rfl) rfl

theorem deliver_keepsNodes (s : State) (e : Option (Option Instr)) {f : State → State} (hf : KeepsNodes s (f s)) :
    KeepsNodes s (s.deliver e f) := by
  unfold State.deliver
  split
  · exact .of_eq (fun _ => rfl) rfl
  · exact .of_eq (fun _ => rfl) rfl
  · exact hf

theorem classify_keepsNodes (s : State) (t : Telegram) : KeepsNodes s (s.classify t) := by
  have forwarded := forwardJoin_keepsNodes s t
  unfold State.classify
  split
  · unfold State.guardedTelegram
    split
    · exact forwarded
    · exact forwarded.trans (.of_eq (fun _ => rfl) rfl)
    · exact .of_eq (fun _ => rfl) rfl
    · exact .of_eq (fun _ => rfl) rfl
  · unfold State.dispose
    dsimp only
    split
    · exact forwarded
    · exact deliver_keepsNodes s _ (.of_eq (fun _ => rfl) rfl)
    · exact forwarded.trans (deliver_keepsNodes _ _ (.refl _))
    · exact .of_eq (fun _ => rfl) rfl

theorem takeGood_keepsNodes (s : State) (t : Telegram) : KeepsNodes s (s.takeGood t) := by
  unfold State.takeGood State.takeAddressed State.takeBroadcastTelegram
  split_ifs
  · exact .of_eq (fun _ => rfl) rfl
  · exact .of_eq (fun _ => rfl) rfl
  · exact intakeJoin_pumpAll_keepsNodes s _
  · exact .of_eq (fun _ => rfl) rfl
  · exact (forwardJoin_keepsNodes s t).trans (intakeJoin_pumpAll_keepsNodes _ _)
  · exact forwardJoin_keepsNodes s t
  · exact classify_keepsNodes s t

theorem receive_keepsNodes (s : State) (t : Telegram) (check : BitVec 16) : KeepsNodes s (s.receive t check) := by
  unfold State.receive State.repeatGood
  split_ifs
  · exact .of_eq (fun _ => rfl) rfl
  · exact .of_eq (fun _ => rfl) rfl
  · exact takeGood_keepsNodes s t
  · exact .of_eq (fun _ => rfl) rfl
  · exact forwardJoin_keepsNodes s t

theorem endTransmission_keepsNodes (s : State) : KeepsNodes s s.endTransmission := by
  unfold State.endTransmission
  split
  · exact .refl s
  · refine KeepsNodes.trans (KeepsNodes.trans ?_ (arbitrate_keepsNodes _)) (pump_keepsNodes _ _)
    exact .of_eq (fun _ => rfl) rfl

theorem poweredOn_keepsNodes (s : State) (adr : Nat) (svc : Bool) : KeepsNodes s (s.poweredOn adr svc) := by
  have fresh := fresh_keepsNodes s (adr % 64) svc
  unfold State.poweredOn
  dsimp only
  split
  · exact (fresh.trans (Work.refl.notify _).keepsNodes).trans (arbitrate_keepsNodes _)
  · exact fresh

/-- A carousel's record a millisecond later. -/
theorem State.tick_carousel (s : State) (k : Nat) : s.tick.carousel k = (s.carousel k).tick := by
  show sparseGet {} k (sparseMap Carousel.tick s.motion.carousels) = _
  unfold State.carousel sparseGet
  rw [sparseMap_find]
  cases sparseFind k s.motion.carousels <;> rfl

theorem tick_keepsNodes (s : State) : KeepsNodes s s.tick := by
  refine SameNodes.keeps ⟨fun k => ?_, fun k => ?_, fun k => ?_, rfl⟩ <;> rw [State.tick_carousel] <;> rfl

theorem keepsNodes_stepRelation : StepRelation KeepsNodes where
  refl := .refl
  trans := .trans
  work := Work.keepsNodes
  arbitrate := arbitrate_keepsNodes
  issue s src p f hf := by
    have answered : KeepsNodes s (f s).state := by
      obtain ⟨c, rfl⟩ | rfl := hf
      · exact answerTo_keepsNodes c s
      · exact payloadAnswer_keepsNodes src p s
    unfold State.issue
    split
    · exact placed_keepsNodes answered _ _
    · exact intakeJoin_pumpAll_keepsNodes s _
  issueBroadcast s src p w y := by
    unfold State.issueBroadcast
    split
    · exact broadcastCalendar_keepsNodes s w y
    · exact intakeJoin_pumpAll_keepsNodes s _
  session := setSession_keepsNodes
  receive := receive_keepsNodes
  endTransmission := endTransmission_keepsNodes
  frameError _ := .of_eq (fun _ => rfl) rfl
  held _ := .of_eq (fun _ => rfl) rfl
  poweredOn := poweredOn_keepsNodes
  tick := tick_keepsNodes
  pending _ _ := .of_eq (fun _ => rfl) rfl

/-- Settles O7: only CONFIGURE-CAROUSEL and SET-LANES configure nodes, and each checks them against the others. -/
theorem everyStepKeepsNodesDistinct : Obligations.EveryStepKeepsNodesDistinct :=
  fun _ _ hs e => keepsNodes_stepRelation.step e hs

/-- Settles O3: every table is empty, and every queue but for the notice already sent. -/
theorem resetMeetsTheInvariants : Obligations.ResetMeetsTheInvariants := by
  refine ⟨⟨Nat.zero_le _, List.nodup_nil, Nat.zero_le _, ?_, Nat.zero_le _⟩, by constructor <;> exact Nat.zero_le _,
    ⟨rfl, rfl, rfl, rfl, rfl⟩, rfl, ?_, fun i j tag h => by cases h⟩
  · exact ⟨Nat.zero_le _, List.forall_mem_nil _, fun _ => Nat.zero_le _⟩
  · constructor
    · intro j k n h; cases h
    · intro k n h; cases h
    · intro k n h; cases h
    · intro k n h; cases h
    · intro k n h; cases h

end Sys2Proof.Machine

/-! # The family of steps and resets

A step runs the command in front, or the part's own event. What the part takes by itself is read off the lists it is
searched in; RESET and power-on are computed. -/

namespace Sys2Proof.Machine

/-! ## A step -/

theorem step_command {c : Instr} {rest : List Instr} {s : State} (h : s.pending = c :: rest) :
    step s = exec c { s with pending := rest } := by
  simp only [step, h]

theorem step_noCommand {s : State} (h : s.pending = []) : step s = idleStep s := by
  simp only [step, h]

/-- Settles O1. -/
theorem stepRunsFrontCommand : Obligations.StepRunsFrontCommand := fun _ _ _ h => step_command h

theorem State.serving_resetHeld {s : State} (h : s.serving = true) : s.resetHeld = false := by
  simp only [State.serving, Bool.and_eq_true, Bool.not_eq_true'] at h
  exact h.1.1

theorem idleStep_held {s : State} (h : s.resetHeld = true) : idleStep s = .next s := by
  simp only [idleStep, h, if_true]

theorem idleStep_ownEvent {s : State} (h : s.serving = true) {c : Instr} (hc : s.ownEvent = some c) :
    idleStep s = exec c s := by
  simp only [idleStep, State.serving_resetHeld h, h, hc, Bool.false_eq_true, if_false, if_true]

theorem idleStep_tick {s : State} (h : s.serving = true) (hc : s.ownEvent = none) : idleStep s = .next s.tick := by
  simp only [idleStep, State.serving_resetHeld h, h, hc, Bool.false_eq_true, if_false, if_true]

section
variable {s : State} (hr : s.resetHeld = false) (hs : s.serving = false)
include hr hs

theorem idleStep_unaddressed_busy {t : Telegram} (ht : s.ring.transmitter = some t) :
    idleStep s = exec .transmissionComplete s := by
  simp only [idleStep, hr, hs, ht, Bool.false_eq_true, if_false]

theorem idleStep_unaddressed_idle (ht : s.ring.transmitter = none) : idleStep s = .next s.tick := by
  simp only [idleStep, hr, hs, ht, Bool.false_eq_true, if_false]

end

/-! ## The event the part takes by itself -/

theorem State.ownEvent_handed {s : State} {c : Instr} {rest : List Instr} (h : s.handed = c :: rest) :
    s.ownEvent = some c := by
  simp only [State.ownEvent, h]

theorem State.ownEvent_due {s : State} {c : Instr} (h : s.handed = []) (hd : s.dueTimer = some c) :
    s.ownEvent = some c := by
  simp only [State.ownEvent, h, hd]

theorem State.ownEvent_line {s : State} (h : s.handed = []) (hd : s.dueTimer = none) :
    s.ownEvent = s.ring.transmitter.map fun _ => .transmissionComplete := by
  simp only [State.ownEvent, h, hd]

/-! ## A millisecond -/

theorem State.tick_port (s : State) (k : Nat) : s.tick.port k = (s.port k).tick := by
  show sparseGet {} k (sparseMap Port.tick s.ports) = _
  unfold State.port sparseGet
  rw [sparseMap_find]
  cases sparseFind k s.ports <;> rfl

theorem State.tick_lane (s : State) (j : Nat) : s.tick.lane j = (s.lane j).tick := by
  show sparseGet {} j (sparseMap Lane.tick s.lanes.lanes) = _
  unfold State.lane sparseGet
  rw [sparseMap_find]
  cases sparseFind j s.lanes.lanes <;> rfl

/-! ## The first that is due -/

section
variable {α β : Type} {f : α → Option β} {x : α} {y : β}

theorem firstSome_eq_none {xs : List α} (h : ∀ x ∈ xs, f x = none) : firstSome f xs = none := by
  induction xs with
  | nil => rfl
  | cons x xs ih =>
    simp only [List.forall_mem_cons] at h
    simp only [firstSome, h.1, ih h.2]

theorem firstSome_append {before after : List α} (hb : ∀ z ∈ before, f z = none) (hx : f x = some y) :
    firstSome f (before ++ x :: after) = some y := by
  induction before with
  | nil => simp only [List.nil_append, firstSome, hx]
  | cons z zs ih =>
    simp only [List.forall_mem_cons] at hb
    simp only [List.cons_append, firstSome, hb.1, ih hb.2]

/-- In a rising list the first is the lowest. -/
theorem firstSome_of_lowest [Preorder α] {xs : List α} (hs : xs.Pairwise (· < ·)) (hm : x ∈ xs) (hx : f x = some y)
    (hl : ∀ z ∈ xs, z < x → f z = none) : firstSome f xs = some y := by
  obtain ⟨before, after, rfl⟩ := List.append_of_mem hm
  rw [List.pairwise_append] at hs
  obtain ⟨-, -, hrising⟩ := hs
  exact firstSome_append (fun z hz => hl z (by simp [hz]) (hrising z hz x (by simp))) hx

theorem placeFrom_eq_none {p : α → Bool} (n : Nat) {xs : List α} (h : ∀ x ∈ xs, p x = false) :
    placeFrom p n xs = none := by
  induction xs generalizing n with
  | nil => rfl
  | cons x xs ih =>
    simp only [List.forall_mem_cons] at h
    simp only [placeFrom, h.1, Bool.false_eq_true, if_false, ih _ h.2]

theorem placeFrom_append {p : α → Bool} (n : Nat) {before after : List α} (hb : ∀ z ∈ before, p z = false)
    (hx : p x = true) : placeFrom p n (before ++ x :: after) = some (n + before.length) := by
  induction before generalizing n with
  | nil => simp only [List.nil_append, placeFrom, hx, if_true, List.length_nil, Nat.add_zero]
  | cons z zs ih =>
    simp only [List.forall_mem_cons] at hb
    simp only [List.cons_append, placeFrom, hb.1, Bool.false_eq_true, if_false, ih _ hb.2, List.length_cons]
    congr 1
    omega

end

theorem eachCarousel_rising : eachCarousel.Pairwise (· < ·) := by decide

theorem mem_eachCarousel (k : CarouselNo) : k ∈ eachCarousel := by revert k; decide

theorem firstSome_eachCarousel {β : Type} {f : CarouselNo → Option β} {k : CarouselNo} {y : β} (hx : f k = some y)
    (hl : ∀ j < k, f j = none) : firstSome f eachCarousel = some y :=
  firstSome_of_lowest eachCarousel_rising (mem_eachCarousel k) hx fun j _ => hl j

theorem firstSome_laneNumbers {β : Type} {f : Nat → Option β} {j : Nat} {y : β} (hj : j < 24) (hx : f j = some y)
    (hl : ∀ h < j, f h = none) : firstSome f laneNumbers = some y :=
  firstSome_of_lowest List.pairwise_lt_range (List.mem_range.2 hj) hx fun h _ => hl h

theorem State.duePort_eq_none {s : State} {k : CarouselNo} (h : (s.port k).timer ≠ some 0) : s.duePort k = none :=
  if_neg h

theorem State.duePort_eq_some {s : State} {k : CarouselNo} (h : (s.port k).timer = some 0) :
    s.duePort k = some (.presentationTimerExpiry k) :=
  if_pos h

theorem Order.dueLine_eq_none {o : Order} (h : ∀ l ∈ o.lines, l.wait ≠ some 0) : o.dueLine = none := by
  rw [Order.dueLine, Option.map_eq_none_iff, List.find?_eq_none]
  simpa using h

theorem Order.dueLine_eq_some {o : Order} {first rest : List Line} {l : Line} (h : o.lines = first ++ l :: rest)
    (hl : l.wait = some 0) (hf : ∀ x ∈ first, x.wait ≠ some 0) : o.dueLine = some (.waitTimerExpiry o.id l.number) := by
  have hnone : first.find? (fun l => l.wait = some 0) = none := by simpa [List.find?_eq_none] using hf
  simp [Order.dueLine, h, List.find?_append, hnone, hl]

theorem State.dueTransit_eq_none {s : State} {j : Nat} (h : ∀ e ∈ (s.lane j).expected, e.timer ≠ some 0) :
    s.dueTransit j = none := by
  rw [State.dueTransit, placeFrom_eq_none 0 (by simpa using h), Option.map_none]

theorem State.dueTransit_eq_some {s : State} {j : Nat} {first rest : List Entry} {x : Entry}
    (h : (s.lane j).expected = first ++ x :: rest) (hx : x.timer = some 0) (hf : ∀ e ∈ first, e.timer ≠ some 0) :
    s.dueTransit j = some (.transitTimerExpiry j first.length) := by
  rw [State.dueTransit, h, placeFrom_append 0 (by simpa using hf) (by simpa using hx), Nat.zero_add, Option.map_some]

/-- The sources of an expiry, in the order of log entry 29. -/
theorem State.dueTimer_eq (s : State) :
    s.dueTimer = (firstSome s.dueMotion eachCarousel).or ((firstSome s.duePort eachCarousel).or
      ((firstSome Order.dueLine s.planner.orders).or ((firstSome s.dueTransit laneNumbers).or s.dueSession))) := by
  unfold State.dueTimer
  generalize firstSome s.dueMotion eachCarousel = motion
  generalize firstSome s.duePort eachCarousel = port
  generalize firstSome Order.dueLine s.planner.orders = line
  generalize firstSome s.dueTransit laneNumbers = transit
  generalize s.dueSession = session
  cases motion with
  | some _ => rfl
  | none =>
    cases port with
    | some _ => rfl
    | none =>
      cases line with
      | some _ => rfl
      | none =>
        cases transit with
        | some _ => rfl
        | none => cases session <;> rfl

/-- Settles O2: the part by itself; a millisecond, table by table; the expiry that is due, source by source; and the
events handed. -/
theorem idlePartTakesItsOwnEvents : Obligations.IdlePartTakesItsOwnEvents := by
  refine ⟨⟨fun s hp => ?idle, fun s => ?tick, fun s => ?due⟩,
    fun s cs c first rest => ⟨rfl, fun h hc => ?taken, fun hc => ?untaken⟩⟩
  case idle =>
    rw [step_noCommand hp]
    refine ⟨idleStep_held, fun hs => ⟨fun c rest h => ?_, fun c h hd => ?_, fun t h hd ht => ?_, fun h hd ht => ?_⟩,
      fun hr hs => ⟨fun t => idleStep_unaddressed_busy hr hs, idleStep_unaddressed_idle hr hs⟩⟩
    · exact idleStep_ownEvent hs (State.ownEvent_handed h)
    · exact idleStep_ownEvent hs (State.ownEvent_due h hd)
    · exact idleStep_ownEvent hs (by rw [State.ownEvent_line h hd, ht]; rfl)
    · exact idleStep_tick hs (by rw [State.ownEvent_line h hd, ht]; rfl)
  case tick => exact ⟨rfl, s.tick_carousel, s.tick_port, s.tick_lane⟩
  case due =>
    intro motion
    rw [State.dueTimer_eq]
    refine ⟨fun k e hk hj => ?_, fun hmotion => ?_⟩
    · rw [firstSome_eachCarousel (f := s.dueMotion) hk hj, Option.some_or]
    rw [firstSome_eq_none (f := s.dueMotion) fun k _ => hmotion k, Option.none_or]
    refine ⟨fun k hk hj => ?_, fun hport => ?_⟩
    · rw [firstSome_eachCarousel (State.duePort_eq_some hk) fun j hjk => State.duePort_eq_none (hj j hjk),
        Option.some_or]
    rw [firstSome_eq_none fun k _ => State.duePort_eq_none (hport k), Option.none_or]
    refine ⟨fun before o after first l rest ho hl hw hf hb => ?_, fun hline => ?_⟩
    · rw [ho, firstSome_append (fun z hz => Order.dueLine_eq_none (hb z hz)) (Order.dueLine_eq_some hl hw hf),
        Option.some_or]
    rw [firstSome_eq_none fun o ho => Order.dueLine_eq_none (hline o ho), Option.none_or]
    refine ⟨fun j first x rest hj hx ht hf hh => ?_, fun hlane => ?_⟩
    · rw [firstSome_laneNumbers hj (State.dueTransit_eq_some hx ht hf)
        fun h hlt => State.dueTransit_eq_none (hh h hlt), Option.some_or]
    rw [firstSome_eq_none (xs := laneNumbers) fun j hj => State.dueTransit_eq_none (hlane j (List.mem_range.1 hj)), Option.none_or]
    refine ⟨fun x hx ht => ?_, fun h => ?_⟩
    · simp only [State.dueSession, hx, ht, if_true]
    · unfold State.dueSession
      split
      next x hx => exact if_neg (h x hx)
      next => rfl
  case taken =>
    rw [State.take, h, List.erase_append_right _ hc, List.erase_cons_head]
  case untaken => rw [State.take, List.erase_of_not_mem hc]

/-! ## Every row answers -/

theorem served_isNext (f : State → State) (s : State) : ∃ t, served f s = .next t := by
  unfold served
  split <;> exact ⟨_, rfl⟩

theorem lineEvent_isNext (f : State → State) (s : State) : ∃ t, lineEvent f s = .next t := by
  unfold lineEvent
  split <;> exact ⟨_, rfl⟩

/-- A row that the pins and the line do not bring is an event of the serving part. -/
theorem exec_served {c : Instr}
    (h : c.atBlock = true ∨ c.commandSource.isSome = true ∨ ∃ n w y, c = .setCalendarBroadcast n w y) :
    ∃ f, ∀ s, exec c s = served f s := by
  obtain h | h | ⟨n, w, y, rfl⟩ := h
  · by_cases hc : c = .sessionTimerExpiry
    · subst hc
      exact ⟨fun t => (t.take .sessionTimerExpiry).sessionExpiry, fun _ => rfl⟩
    · obtain ⟨f, hf, -⟩ := atBlock_work h hc
      exact ⟨fun t => f (t.take c), hf⟩
  · obtain ⟨src, h⟩ := Option.isSome_iff_exists.1 h
    by_cases hb : ∃ p, c = .badCommandNumber src p
    · obtain ⟨p, rfl⟩ := hb
      exact ⟨fun t => t.issue src p (payloadAnswer src p), fun _ => rfl⟩
    · exact ⟨fun t => t.issue src (commandPayload c) (answerTo c), exec_command h fun p hp => hb ⟨p, hp⟩⟩
  · exact ⟨fun t => t.issueBroadcast n (commandPayload (.setCalendarBroadcast n w y)) fun u => u.broadcastCalendar w y,
      fun _ => rfl⟩

/-- Settles O8: a row of the pins answers at once; every other row is one event of the line or of the serving part. -/
theorem noRowStopsThePart : Obligations.NoRowStopsThePart := by
  intro c s
  have ofServed (h : c.atBlock = true ∨ c.commandSource.isSome = true ∨ ∃ n w y, c = .setCalendarBroadcast n w y) :
      ∃ t, exec c s = .next t := by
    obtain ⟨f, hf⟩ := exec_served h
    rw [hf]
    exact served_isNext f s
  cases c with
  | resetAsserted => exact ⟨_, rfl⟩
  | powerOn => exact ⟨_, rfl⟩
  | frameError => exact lineEvent_isNext State.countFrameError s
  | telegramReceived t check => exact lineEvent_isNext (fun u => u.receive t check) s
  | transmissionComplete => exact lineEvent_isNext State.endTransmission s
  | setCalendarBroadcast n w y => exact ofServed (.inr (.inr ⟨n, w, y, rfl⟩))
  | _ => first | exact ofServed (.inl rfl) | exact ofServed (.inr (.inl rfl))

/-! ## RESET and power-on -/

theorem State.fresh_serving (s : State) (a : Nat) (high : Bool) : (s.fresh a high).serving = true ↔ a ≠ 0 ∧ a ≠ 63 := by
  simp [State.serving, State.fresh]

theorem exec_notServing {c : Instr} {s : State} (hs : s.serving = false)
    (h : c.atBlock = true ∨ c.commandSource.isSome = true ∨ ∃ n w y, c = .setCalendarBroadcast n w y) :
    exec c s = .next s := by
  obtain ⟨f, hf⟩ := exec_served h
  rw [hf, served, hs]
  rfl

theorem exec_resetHeld {c : Instr} {s : State} (hr : s.resetHeld = true) (hc : c ≠ .resetAsserted)
    (hp : ∀ adr svc, c ≠ .powerOn adr svc) : exec c s = .next s := by
  have hs : s.serving = false := by simp [State.serving, hr]
  cases c with
  | resetAsserted => exact absurd rfl hc
  | powerOn adr svc => exact absurd rfl (hp adr svc)
  | frameError => exact if_pos hr
  | telegramReceived => exact if_pos hr
  | transmissionComplete => exact if_pos hr
  | setCalendarBroadcast n w y => exact exec_notServing hs (.inr (.inr ⟨n, w, y, rfl⟩))
  | _ => first | exact exec_notServing hs (.inl rfl) | exact exec_notServing hs (.inr (.inl rfl))

theorem exec_powerOn_unaddressed {adr : Nat} (svc : Bool) (s : State) (h : adr % 64 = 0 ∨ adr % 64 = 63) :
    exec (.powerOn adr svc) s = .next { pending := s.pending, address := adr % 64, serviceHigh := svc } := by
  have hs := mt (s.fresh_serving (adr % 64) svc).1 (by omega)
  show Host.Outcome.next (s.poweredOn adr svc) = _
  simp only [State.poweredOn, if_neg hs]
  rfl

/-- The STARTED notice has joined and, every queue being empty, has left for the transmitter. -/
theorem State.fresh_started_arbitrate (s : State) {a : Nat} (ha : a < 64) (svc : Bool) :
    ((s.fresh a svc).notify (.started a svc false)).arbitrate =
      { pending := s.pending, address := a, serviceHigh := svc,
        ring := { transmitter := some ⟨0, BitVec.ofNat 8 a, 3, 32,
          [0, 1, 6, 19, BitVec.ofNat 8 a, (if svc then 0 else 1), 0]⟩ },
        command := { noticeSequence := 1 } } := by
  have payload : (⟨1, .started a svc false⟩ : QueuedNotice).payload =
      [0, 1, 6, 19, byteOf a, (if svc then 0 else 1), 0] := by
    cases svc <;> simp [QueuedNotice.payload, Notice.fields, Notice.cls, Notice.code, NoticeClass.code, strapCode, be1,
      be2, byteOf]
  have sent : ((s.fresh a svc).notify (.started a svc false)).arbitrate =
      { pending := s.pending, address := a, serviceHigh := svc,
        ring := { transmitter := some (ownTelegram a 0 kindNotice (⟨1, .started a svc false⟩ : QueuedNotice).payload) },
        command := { noticeSequence := 1 } } := rfl
  rw [sent, payload, ownTelegram, Nat.mod_eq_of_lt ha]
  rfl

theorem exec_powerOn_addressed {adr : Nat} (svc : Bool) (s : State) (h1 : 1 ≤ adr % 64) (h62 : adr % 64 ≤ 62) :
    exec (.powerOn adr svc) s = .next
      { pending := s.pending, address := adr % 64, serviceHigh := svc,
        ring := { transmitter := some ⟨0, BitVec.ofNat 8 (adr % 64), 3, 32,
          [0, 1, 6, 19, BitVec.ofNat 8 (adr % 64), (if svc then 0 else 1), 0]⟩ },
        command := { noticeSequence := 1 } } := by
  have hs := (s.fresh_serving (adr % 64) svc).2 (by omega)
  show Host.Outcome.next (s.poweredOn adr svc) = _
  simp only [State.poweredOn, if_pos hs]
  rw [s.fresh_started_arbitrate (Nat.mod_lt adr (by decide)) svc]

/-- Settles O4: power-on by its straps, then RESET applied and held. -/
theorem resetHoldsAndPowerOnStarts : Obligations.ResetHoldsAndPowerOnStarts :=
  ⟨⟨fun _ svc s h => exec_powerOn_unaddressed svc s h, fun _ svc s h1 h62 => exec_powerOn_addressed svc s h1 h62,
      fun s => exec_powerOn_addressed true s (by decide) (by decide)⟩,
    ⟨fun _ => rfl, fun _ _ hr hc hp => exec_resetHeld hr hc hp⟩⟩

/-! ## What a row at a block leaves alone (R158) -/

/-- What only commands, the line and the pins change, but for the load session. -/
structure SettingsAlone (s t : State) : Prop where
  bankA : t.policy.bankA = s.policy.bankA
  bankB : t.policy.bankB = s.policy.bankB
  active : t.policy.active = s.policy.active
  calendar : t.stock.calendar = s.stock.calendar
  fixed : ∀ k, (t.carousel k).fixed = (s.carousel k).fixed
  conveyor : t.lanes.conveyor = s.lanes.conveyor
  transitTimeout : t.lanes.transitTimeout = s.lanes.transitTimeout
  enables : t.command.enables = s.command.enables
  intake : t.command.intake = s.command.intake
  overruns : t.command.intakeOverruns = s.command.intakeOverruns
  counters : t.ring.counters = s.ring.counters
  receiver : t.ring.receiver = s.ring.receiver
  lineBits : t.ring.lineBits = s.ring.lineBits
  address : t.address = s.address
  serviceHigh : t.serviceHigh = s.serviceHigh
  resetHeld : t.resetHeld = s.resetHeld
  now : t.now = s.now
  pending : t.pending = s.pending

theorem SettingsAlone.refl (s : State) : SettingsAlone s s := by constructor <;> intros <;> rfl

theorem SettingsAlone.trans {s t u : State} (h : SettingsAlone s t) (g : SettingsAlone t u) : SettingsAlone s u where
  bankA := g.bankA.trans h.bankA
  bankB := g.bankB.trans h.bankB
  active := g.active.trans h.active
  calendar := g.calendar.trans h.calendar
  fixed k := (g.fixed k).trans (h.fixed k)
  conveyor := g.conveyor.trans h.conveyor
  transitTimeout := g.transitTimeout.trans h.transitTimeout
  enables := g.enables.trans h.enables
  intake := g.intake.trans h.intake
  overruns := g.overruns.trans h.overruns
  counters := g.counters.trans h.counters
  receiver := g.receiver.trans h.receiver
  lineBits := g.lineBits.trans h.lineBits
  address := g.address.trans h.address
  serviceHigh := g.serviceHigh.trans h.serviceHigh
  resetHeld := g.resetHeld.trans h.resetHeld
  now := g.now.trans h.now
  pending := g.pending.trans h.pending

theorem Work.settingsAlone {s t : State} (h : Work s t) : SettingsAlone s t :=
  have u := h.untouched
  ⟨by rw [u.policy], by rw [u.policy], by rw [u.policy], u.calendar, h.fixed, u.conveyor, u.transitTimeout, u.enables,
    u.intake, u.overruns, u.counters, u.receiver, u.lineBits, u.address, u.serviceHigh, u.resetHeld, u.now, u.pending⟩

theorem finish_settingsAlone (s₀ s : State) : SettingsAlone s (State.finish s₀ s) := by
  obtain ⟨u, r, hw, e, hc, hrec, hbits⟩ := finish_ring s₀ s
  rw [e]
  refine hw.settingsAlone.trans ?_
  exact ⟨rfl, rfl, rfl, rfl, fun _ => rfl, rfl, rfl, rfl, rfl, rfl, hc, hrec, hbits, rfl, rfl, rfl, rfl, rfl⟩

theorem finish_policy (s₀ s : State) : (State.finish s₀ s).policy = s.policy := by
  obtain ⟨u, r, hw, e, -⟩ := finish_ring s₀ s
  rw [e]
  exact hw.untouched.policy

theorem sessionExpiry_settingsAlone (s : State) : SettingsAlone s s.sessionExpiry := by
  obtain e | h := sessionExpiry_work s
  · rw [e]; exact .refl s
  · refine SettingsAlone.trans (t := s.setSession none) ?_ h.settingsAlone
    constructor <;> intros <;> rfl

theorem take_settingsAlone (s : State) (c : Instr) : SettingsAlone s (s.take c) :=
  Work.settingsAlone (Work.refl.handed _)

theorem atBlock_settingsAlone {c : Instr} {s t : State} (hc : c.atBlock = true) (e : exec c s = .next t) :
    SettingsAlone s t ∧ (c ≠ .sessionTimerExpiry → t.policy.session = s.policy.session) := by
  by_cases hx : c = .sessionTimerExpiry
  · subst hx
    refine ⟨?_, fun h => absurd rfl h⟩
    obtain ⟨-, e⟩ | ⟨-, e⟩ := served_next (f := fun u => (u.take .sessionTimerExpiry).sessionExpiry) e <;> rw [e]
    · exact ((take_settingsAlone s _).trans (sessionExpiry_settingsAlone _)).trans (finish_settingsAlone _ _)
    · exact .refl s
  · obtain ⟨f, hf, hw⟩ := atBlock_work hc hx
    rw [hf] at e
    have work : Work s (f (s.take c)) := (Work.refl.handed _).trans (hw _)
    obtain ⟨-, e⟩ | ⟨-, e⟩ := served_next (f := fun u => f (u.take c)) e <;> rw [e]
    · exact ⟨work.settingsAlone.trans (finish_settingsAlone _ _),
        fun _ => by rw [finish_policy, work.untouched.policy]⟩
    · exact ⟨.refl s, fun _ => rfl⟩

/-- Settles O11: a block's row is the block's own work, the end of a session, and the end of the event. -/
theorem blockRowsLeaveSettingsAlone : Obligations.BlockRowsLeaveSettingsAlone := by
  intro c s t hc e
  obtain ⟨h, hsession⟩ := atBlock_settingsAlone hc e
  exact ⟨h.bankA, h.bankB, h.active, hsession, h.calendar, h.fixed, h.conveyor, h.transitTimeout, h.enables, h.intake,
    h.overruns, h.counters, h.receiver, h.lineBits, h.address, h.serviceHigh, h.resetHeld, h.now, h.pending⟩

end Sys2Proof.Machine

/-! # The family of the end of an event

The idle-sweep tests change a carousel's sweep timer alone, the DISPLAYs the field queue alone, and the arbiter what is
sent: so each of the three is described by itself, and the end of an event is the three one after another. -/

namespace Sys2Proof.Machine

/-! ## The idle-sweep tests (R74) -/

/-- A carousel's record after the idle-sweep test, by whether the conditions hold. -/
def Carousel.sweepTested (c : Carousel) (holds : Bool) : Carousel :=
  { c with sweepTimer := if holds then some (c.sweepTimer.getD (c.sweepDelay * 1000)) else none }

theorem State.idleTest_carousel (s : State) (k j : Nat) :
    (s.idleTest k).carousel j = if j = k then (s.carousel k).sweepTested (s.idleConditions k) else s.carousel j := by
  unfold State.idleTest Carousel.sweepTested
  cases hc : s.idleConditions k with
  | false => simp [State.onCarousel_read]
  | true =>
    cases ht : (s.carousel k).sweepTimer with
    | none => simp [State.onCarousel_read]
    | some n =>
      simp only [if_true, Option.getD_some]
      split
      next e => rw [e, ← ht]
      next => rfl

theorem State.idleConditions_iff (s : State) (k : Nat) :
    s.idleConditions k = true ↔ (s.auditRecord k).mode = .zoneCycle ∧ (s.carousel k).sweepDelay ≠ 0
      ∧ (s.carousel k).state = .standing ∧ (s.carousel k).curtainBroken = false ∧ (s.carousel k).stops = []
      ∧ (s.port k).work = .idle := by
  simp [State.idleConditions, and_assoc]

/-- What a change of the sweep timers leaves: everything but those timers. -/
structure SweepOnly (s t : State) : Prop where
  rest : ∃ cs, t = { s with motion := { s.motion with carousels := cs } }
  carousel : ∀ k, { t.carousel k with sweepTimer := none } = { s.carousel k with sweepTimer := none }

namespace SweepOnly

theorem refl (s : State) : SweepOnly s s := ⟨⟨_, rfl⟩, fun _ => rfl⟩

theorem trans {s t u : State} (h : SweepOnly s t) (g : SweepOnly t u) : SweepOnly s u := by
  refine ⟨?_, fun k => (g.carousel k).trans (h.carousel k)⟩
  obtain ⟨_, rfl⟩ := h.rest
  obtain ⟨cs, rfl⟩ := g.rest
  exact ⟨cs, rfl⟩

variable {s t : State} (h : SweepOnly s t)
include h

theorem ring : t.ring = s.ring := by obtain ⟨_, rfl⟩ := h.rest; rfl
theorem address : t.address = s.address := by obtain ⟨_, rfl⟩ := h.rest; rfl
theorem lanes : t.lanes = s.lanes := by obtain ⟨_, rfl⟩ := h.rest; rfl
theorem port (k : Nat) : t.port k = s.port k := by obtain ⟨_, rfl⟩ := h.rest; rfl
theorem auditRecord (k : Nat) : t.auditRecord k = s.auditRecord k := by obtain ⟨_, rfl⟩ := h.rest; rfl
theorem portNode (k : Nat) : (t.carousel k).port = (s.carousel k).port := by
  simpa only using congrArg Carousel.port (h.carousel k)

/-- A change of the ring's queues alongside. -/
theorem withRing (r : Ring) : SweepOnly { s with ring := r } { t with ring := r } := by
  refine ⟨?_, h.carousel⟩
  obtain ⟨cs, rfl⟩ := h.rest
  exact ⟨cs, rfl⟩

end SweepOnly

theorem State.onCarousel_sweepOnly (s : State) (k : Nat) {f : Carousel → Carousel}
    (hf : ∀ c, { f c with sweepTimer := none } = { c with sweepTimer := none }) : SweepOnly s (s.onCarousel k f) := by
  refine ⟨⟨_, rfl⟩, fun j => ?_⟩
  rw [State.onCarousel_read]
  split
  next e => rw [e, hf]
  next => rfl

theorem State.idleTest_sweepOnly (s : State) (k : Nat) : SweepOnly s (s.idleTest k) := by
  unfold State.idleTest
  split
  · split
    · exact .refl s
    · exact s.onCarousel_sweepOnly k fun _ => rfl
  · exact s.onCarousel_sweepOnly k fun _ => rfl

/-- The tests of some carousels, one after another. -/
def State.idleTestsOn (s₀ s : State) (ks : List Nat) : State :=
  ks.foldl (fun t k => if idleTouched s₀ t k then t.idleTest k else t) s

theorem State.idleTestsOn_sweepOnly (s₀ : State) (ks : List Nat) (s : State) :
    SweepOnly s (State.idleTestsOn s₀ s ks) := by
  induction ks generalizing s with
  | nil => exact .refl s
  | cons k ks ih =>
    refine SweepOnly.trans ?_ (ih _)
    dsimp only
    split
    · exact s.idleTest_sweepOnly k
    · exact .refl s

theorem State.idleTests_sweepOnly (s₀ s : State) : SweepOnly s (State.idleTests s₀ s) :=
  State.idleTestsOn_sweepOnly s₀ carouselNumbers s

/-- The tests of other carousels leave a carousel's record. -/
theorem State.idleTestsOn_other (s₀ : State) {k : Nat} {ks : List Nat} (hk : k ∉ ks) (s : State) :
    (State.idleTestsOn s₀ s ks).carousel k = s.carousel k := by
  induction ks generalizing s with
  | nil => rfl
  | cons j ks ih =>
    simp only [List.mem_cons, not_or] at hk
    refine (ih hk.2 _).trans ?_
    dsimp only
    split
    · rw [State.idleTest_carousel, if_neg hk.1]
    · rfl

theorem State.idleTouched_congr (s₀ : State) {s t : State} {k : Nat} (hc : t.carousel k = s.carousel k)
    (h : SweepOnly s t) : idleTouched s₀ t k = idleTouched s₀ s k := by
  simp only [idleTouched, hc, h.port, h.auditRecord]

theorem State.idleConditions_congr {s t : State} {k : Nat} (hc : t.carousel k = s.carousel k) (h : SweepOnly s t) :
    t.idleConditions k = s.idleConditions k := by
  simp only [State.idleConditions, hc, h.port, h.auditRecord]

/-- A carousel that the event touched is tested once, on the record that the event left. -/
theorem State.idleTests_carousel {s₀ s : State} {k : Nat} (hk : k < 8) (ht : idleTouched s₀ s k = true) :
    (State.idleTests s₀ s).carousel k = (s.carousel k).sweepTested (s.idleConditions k) := by
  obtain ⟨before, after, e⟩ := List.append_of_mem (List.mem_range.2 hk)
  have hnodup : (before ++ k :: after).Nodup := e ▸ List.nodup_range
  obtain ⟨hbefore, hafter⟩ : k ∉ before ∧ k ∉ after := by
    rw [List.nodup_middle, List.nodup_cons, List.mem_append, not_or] at hnodup
    exact hnodup.1
  have split : State.idleTests s₀ s = State.idleTestsOn s₀ s (before ++ k :: after) := by
    rw [← e]; rfl
  have hb := State.idleTestsOn_sweepOnly s₀ before s
  have hc := State.idleTestsOn_other s₀ hbefore s
  have touched := (State.idleTouched_congr s₀ hc hb).trans ht
  rw [split, State.idleTestsOn, List.foldl_append, List.foldl_cons]
  refine (State.idleTestsOn_other s₀ hafter _).trans ?_
  change (if idleTouched s₀ (State.idleTestsOn s₀ s before) k then (State.idleTestsOn s₀ s before).idleTest k
    else State.idleTestsOn s₀ s before).carousel k = _
  rw [if_pos touched, State.idleTest_carousel, if_pos rfl, hc, State.idleConditions_congr hc hb]

/-! ## The DISPLAYs (R86) -/

/-- The DISPLAYs of some carousels, one after another. -/
def State.showDisplaysOn (s₀ s : State) (ks : List Nat) : State := ks.foldl (fun t k => State.showDisplay s₀ t k) s

/-- Queueing for the field changes the field queue alone. -/
theorem State.queueField_eq (s : State) (x : FieldTarget) (c : FieldCommand) :
    s.queueField x c = { s with ring := { s.ring with field := (s.queueField x c).ring.field } } := by
  unfold State.queueField
  split <;> rfl

theorem State.showDisplay_frame (s₀ s : State) (k : Nat) :
    ∃ q, State.showDisplay s₀ s k = { s with ring := { s.ring with field := q } } := by
  unfold State.showDisplay
  split
  · exact ⟨_, s.queueField_eq _ _⟩
  · exact ⟨s.ring.field, rfl⟩

theorem State.showDisplaysOn_frame (s₀ : State) (ks : List Nat) (s : State) :
    ∃ q, State.showDisplaysOn s₀ s ks = { s with ring := { s.ring with field := q } } := by
  induction ks generalizing s with
  | nil => exact ⟨s.ring.field, rfl⟩
  | cons k ks ih =>
    obtain ⟨q, e⟩ := ih (State.showDisplay s₀ s k)
    obtain ⟨_, hd⟩ := State.showDisplay_frame s₀ s k
    refine ⟨q, e.trans ?_⟩
    rw [hd]

theorem State.showDisplaysOn_eq (s₀ : State) (ks : List Nat) (s : State) :
    State.showDisplaysOn s₀ s ks =
      { s with ring := { s.ring with field := (State.showDisplaysOn s₀ s ks).ring.field } } := by
  obtain ⟨q, e⟩ := State.showDisplaysOn_frame s₀ ks s
  rw [e]

/-- A DISPLAY is the same whatever the sweep timers are. -/
theorem SweepOnly.showDisplay {s t : State} (h : SweepOnly s t) (s₀ : State) (k : Nat) :
    SweepOnly (State.showDisplay s₀ s k) (State.showDisplay s₀ t k) := by
  unfold State.showDisplay
  rw [h.port]
  split
  · have dest : t.fieldDest (.port k) = s.fieldDest (.port k) := h.portNode k
    unfold State.queueField
    rw [dest, h.ring]
    split
    · exact h
    · exact h.withRing _
  · exact h

theorem SweepOnly.showDisplaysOn (s₀ : State) (ks : List Nat) {s t : State} (h : SweepOnly s t) :
    SweepOnly (State.showDisplaysOn s₀ s ks) (State.showDisplaysOn s₀ t ks) := by
  induction ks generalizing s t with
  | nil => exact h
  | cons k ks ih => exact ih (h.showDisplay s₀ k)

/-! ## The arbiter's choice (R145) -/

theorem State.sendFrom_empty {s : State} {x : Source} (h : s.queueEmpty x) : s.sendFrom x = none := by
  cases x <;> simp only [State.queueEmpty] at h <;> simp only [State.sendFrom, h]

theorem State.sendFirst_empty {s : State} {xs : List Source} (h : ∀ x ∈ xs, s.queueEmpty x) : s.sendFirst xs = s := by
  induction xs with
  | nil => rfl
  | cons x xs ih =>
    simp only [List.forall_mem_cons] at h
    simp only [State.sendFirst, State.sendFrom_empty h.1, ih h.2]

theorem State.sendFirst_append {s t : State} {x : Source} {before after : List Source}
    (hb : ∀ y ∈ before, s.queueEmpty y) (hx : s.sendFrom x = some t) : s.sendFirst (before ++ x :: after) = t := by
  induction before with
  | nil => simp only [List.nil_append, State.sendFirst, hx]
  | cons y ys ih =>
    simp only [List.forall_mem_cons] at hb
    simp only [List.cons_append, State.sendFirst, State.sendFrom_empty hb.1, ih hb.2]

theorem State.arbitrate_empty {s : State} (ht : s.ring.transmitter = none) (h : ∀ x, s.queueEmpty x) :
    s.arbitrate = s := by
  simp only [State.arbitrate, ht]
  exact State.sendFirst_empty fun x _ => h x

theorem State.arbitrate_sends {s t : State} {x : Source} {before after : List Source}
    (ht : s.ring.transmitter = none) (hp : s.ring.pointer.fromHere = before ++ x :: after)
    (hb : ∀ y ∈ before, s.queueEmpty y) (hx : s.sendFrom x = some t) : s.arbitrate = t := by
  simp only [State.arbitrate, ht, hp]
  exact State.sendFirst_append hb hx

section
variable {s : State}

theorem State.sendFrom_forward {u : Telegram} {rest : List Telegram} (h : s.ring.forward = u :: rest) :
    s.sendFrom .forward = some { s with ring := { s.ring with
      forward := rest, transmitter := some u.forwarded, pointer := .field } } := by
  simp only [State.sendFrom, h]

theorem State.sendFrom_field {e : FieldEntry} {rest : List FieldEntry} (h : s.ring.field = e :: rest) :
    s.sendFrom .field = some { s with ring := { s.ring with
      field := rest, pointer := .reply,
      transmitter := some (ownTelegram s.address e.dest e.command.kind e.command.payload) } } := by
  simp only [State.sendFrom, h]

theorem State.sendFrom_reply {a : Reply} {rest : List Reply} (h : s.ring.replies = a :: rest) :
    s.sendFrom .reply = some { s with ring := { s.ring with
      replies := rest, pointer := .notice,
      transmitter := some (ownTelegram s.address a.dest kindReply a.payload) } } := by
  simp only [State.sendFrom, h]

theorem State.sendFrom_notice {q : QueuedNotice} {rest : List QueuedNotice} (h : s.ring.notices = q :: rest) :
    s.sendFrom .notice = some { s with ring := { s.ring with
      notices := rest, pointer := .forward,
      transmitter := some (ownTelegram s.address 0 kindNotice q.payload) } } := by
  simp only [State.sendFrom, h]

end

/-! ## The end of an event as a whole -/

/-- Before the arbiter chooses, the sweep timers apart, the field queue alone has changed. -/
theorem State.finish_shown (s₀ s : State) :
    ∃ t, SweepOnly (State.showDisplaysOn s₀ s (List.range 8)) t ∧ State.finish s₀ s = t.arbitrate :=
  ⟨State.showDisplays s₀ (State.idleTests s₀ s), (State.idleTests_sweepOnly s₀ s).showDisplaysOn s₀ (List.range 8), rfl⟩

theorem State.withRing_carousel (s : State) (r : Ring) (k : Nat) :
    ({ s with ring := r } : State).carousel k = s.carousel k := rfl

theorem State.finish_carousel (s₀ s : State) (k : Nat) :
    (State.finish s₀ s).carousel k = (State.idleTests s₀ s).carousel k := by
  obtain ⟨r, hr, -⟩ := arbitrate_ring (State.showDisplays s₀ (State.idleTests s₀ s))
  obtain ⟨q, hq⟩ := State.showDisplaysOn_frame s₀ carouselNumbers (State.idleTests s₀ s)
  have hq : State.showDisplays s₀ (State.idleTests s₀ s) = _ := hq
  rw [State.finish, hr, hq, State.withRing_carousel, State.withRing_carousel]

theorem State.finish_frame (s₀ s : State) :
    ∃ cs r, State.finish s₀ s = { s with motion := { s.motion with carousels := cs }, ring := r }
      ∧ r.counters = s.ring.counters ∧ r.receiver = s.ring.receiver ∧ r.lineBits = s.ring.lineBits := by
  obtain ⟨t, ht, e⟩ := State.finish_shown s₀ s
  obtain ⟨r, hr, hc, hrec, hbits⟩ := arbitrate_ring t
  have shown := State.showDisplaysOn_eq s₀ (List.range 8) s
  refine ⟨t.motion.carousels, r, ?_, ?_, ?_, ?_⟩
  · obtain ⟨cs, hcs⟩ := ht.rest
    rw [e, hr, hcs, shown]
  · rw [hc, ht.ring, shown]
  · rw [hrec, ht.ring, shown]
  · rw [hbits, ht.ring, shown]

section
variable {s₀ s : State}

theorem State.finish_busy {x : Telegram} (hx : s.ring.transmitter = some x) :
    (State.finish s₀ s).ring =
      { s.ring with field := (State.showDisplaysOn s₀ s (List.range 8)).ring.field } := by
  obtain ⟨t, ht, e⟩ := State.finish_shown s₀ s
  have hring := ht.ring.trans (congrArg State.ring (State.showDisplaysOn_eq s₀ (List.range 8) s))
  rw [e, arbitrate_busy (t := x) (by rw [hring]; exact hx), hring]

/-- With the transmitter idle the arbiter chooses on the queues that the DISPLAYs left. -/
theorem State.finish_idle (hx : s.ring.transmitter = none) :
    ∃ t : State, State.finish s₀ s = t.arbitrate ∧ t.ring.transmitter = none ∧ t.address = s.address
      ∧ t.ring = { s.ring with field := (State.showDisplaysOn s₀ s (List.range 8)).ring.field }
      ∧ (∀ x, t.queueEmpty x ↔ (State.showDisplaysOn s₀ s (List.range 8)).queueEmpty x) := by
  obtain ⟨t, ht, e⟩ := State.finish_shown s₀ s
  have shown := State.showDisplaysOn_eq s₀ (List.range 8) s
  have hring := ht.ring.trans (congrArg State.ring shown)
  refine ⟨t, e, by rw [hring]; exact hx, ht.address.trans (by rw [shown]), hring, fun x => ?_⟩
  cases x <;> simp only [State.queueEmpty, ht.ring]

end

/-! ## The indicators (R85) -/

theorem State.rebuild_unserved {s : State} {k : Nat} (h : (s.port k).work = .idle ∨ (s.port k).work = .calling) :
    s.rebuild k = s := by
  have served : (s.port k).servedCarrier = none := by obtain h | h := h <;> simp only [Port.servedCarrier, h]
  simp only [State.rebuild, served]

theorem State.rebuild_served {s : State} {k c : Nat} (h : (s.port k).servedCarrier = some c) :
    s.rebuild k = s.onPort k fun p => { p with display := { p.display with
      indicators := (List.range 8).map (s.indicatorAt k c) } } := by
  simp only [State.rebuild, h]

theorem Port.servedCarrier_presenting {p : Port} {x : Presentation} (h : p.work = .presenting x) :
    p.servedCarrier = some x.carrier := by
  simp only [Port.servedCarrier, h]

theorem Port.servedCarrier_placing {p : Port} {c : Nat} (h : p.work = .placing c) : p.servedCarrier = some c := by
  simp only [Port.servedCarrier, h]

section
variable {p : Port} {x : Nat}

theorem Port.taskIndicator_task {r : Presentation} {t : PickTask} (hw : p.work = .presenting r)
    (ht : r.tasks.find? (fun t => t.position = x) = some t) : p.taskIndicator x = some (.pickPending t.lane) := by
  simp only [Port.taskIndicator, hw, ht]

theorem Port.taskIndicator_done {r : Presentation} {lane : Nat} (hw : p.work = .presenting r)
    (ht : ∀ t ∈ r.tasks, t.position ≠ x) (hd : sparseFind x r.done = some lane) :
    p.taskIndicator x = some (.pickDone lane) := by
  have none : r.tasks.find? (fun t => t.position = x) = none := by simpa [List.find?_eq_none] using ht
  simp only [Port.taskIndicator, hw, none, hd, Option.map_some]

theorem Port.taskIndicator_here {y : Nat} {a : Putaway} (hw : p.work = .placing y) (ha : p.putaway = some a)
    (hx : a.slot % 8 = x) : p.taskIndicator x = some .storeHere := by
  simp only [Port.taskIndicator, hw, ha, slotPosition, hx, if_true]

theorem Port.taskIndicator_none
    (ht : ∀ t, ¬∃ r, p.work = .presenting r ∧ r.tasks.find? (fun t => t.position = x) = some t)
    (hd : ∀ lane, ¬∃ r, p.work = .presenting r ∧ (∀ t ∈ r.tasks, t.position ≠ x) ∧ sparseFind x r.done = some lane)
    (hh : ¬((∃ y, p.work = .placing y) ∧ ∃ a, p.putaway = some a ∧ a.slot % 8 = x)) : p.taskIndicator x = none := by
  cases hw : p.work with
  | idle => simp only [Port.taskIndicator, hw]
  | calling => simp only [Port.taskIndicator, hw]
  | presenting r =>
    have noTask : r.tasks.find? (fun t => t.position = x) = none :=
      Option.eq_none_iff_forall_ne_some.2 fun t h => ht t ⟨r, hw, h⟩
    have noDone : sparseFind x r.done = none :=
      Option.eq_none_iff_forall_ne_some.2 fun lane h =>
        hd lane ⟨r, hw, by simpa [List.find?_eq_none] using noTask, h⟩
    simp only [Port.taskIndicator, hw, noTask, noDone, Option.map_none]
  | placing y =>
    cases ha : p.putaway with
    | none => simp only [Port.taskIndicator, hw, ha]
    | some a =>
      have elsewhere : slotPosition a.slot ≠ x := fun h => hh ⟨⟨y, hw⟩, a, ha, h⟩
      simp only [Port.taskIndicator, hw, ha, if_neg elsewhere]

end

section
variable {s : State} {k c x : Nat}

theorem State.indicatorAt_past (h : (s.carousel k).positions ≤ x) : s.indicatorAt k c x = .dark := if_pos h

theorem State.indicatorAt_held (h : x < (s.carousel k).positions)
    (hx : (∃ y, (s.slot (slotIndex k c x)).content = .held y) ∨ (s.slot (slotIndex k c x)).content = .blocked) :
    s.indicatorAt k c x = .hold := by
  obtain ⟨y, hx⟩ | hx := hx <;> simp only [State.indicatorAt, if_neg h.not_ge, hx]

/-- Where the position is not held, the task's indicator is shown, else EMPTY-HINT or DARK. -/
theorem State.indicatorAt_unheld (h : x < (s.carousel k).positions)
    (hx : ¬((∃ y, (s.slot (slotIndex k c x)).content = .held y) ∨ (s.slot (slotIndex k c x)).content = .blocked)) :
    s.indicatorAt k c x = ((s.port k).taskIndicator x).getD
      (if (s.slot (slotIndex k c x)).content = .empty ∧ (s.port k).emptyHints = true ∧ (s.port k).mode = .store
        then .emptyHint else .dark) := by
  unfold State.indicatorAt
  dsimp only
  rw [if_neg h.not_ge]
  generalize (s.slot (slotIndex k c x)).content = content at hx ⊢
  cases content with
  | held y => exact absurd (.inl ⟨y, rfl⟩) hx
  | blocked => exact absurd (.inr rfl) hx
  | _ => cases (s.port k).taskIndicator x <;> rfl

end

/-- Settles O12: the end of an event by its three parts, then the rebuild and each indicator by R85's cases. -/
theorem endOfEventQueuesDisplaysAndKeepsTheRest : Obligations.EndOfEventQueuesDisplaysAndKeepsTheRest := by
  refine ⟨⟨⟨fun s₀ s => ?frame, fun s₀ s k => ⟨fun hd ha => if_pos ⟨hd, ha⟩, fun h => ?noDisplay⟩⟩,
    fun s k => ⟨State.rebuild_unserved, fun x hx => State.rebuild_served (Port.servedCarrier_presenting hx),
      fun c hc => State.rebuild_served (Port.servedCarrier_placing hc)⟩,
    fun s k c x => ⟨State.indicatorAt_past, fun hx => ⟨State.indicatorAt_held hx, fun hheld => ?indicators⟩⟩⟩,
    fun s₀ s => ?ring, rfl⟩
  case frame =>
    intro t
    have hcarousel (k : Nat) : { t.carousel k with sweepTimer := none } = { s.carousel k with sweepTimer := none } := by
      rw [State.finish_carousel]
      exact (State.idleTests_sweepOnly s₀ s).carousel k
    obtain ⟨cs, r, e, hcounters, hreceiver, hbits⟩ := State.finish_frame s₀ s
    have e : t = _ := e
    clear_value t
    subst e
    exact ⟨rfl, rfl, rfl, rfl, rfl, rfl, rfl, rfl, rfl, rfl, rfl, rfl, rfl, rfl, hcarousel, hcounters, hreceiver, hbits⟩
  case noDisplay => exact if_neg fun ⟨hd, ha⟩ => h.elim (fun e => hd e) fun e => by rw [ha] at e; cases e
  case indicators =>
    rw [State.indicatorAt_unheld hx hheld]
    refine ⟨fun t ⟨r, hw, ht⟩ => ?_, fun lane ⟨r, hw, ht, hd⟩ => ?_, fun ⟨⟨y, hw⟩, a, ha, hp⟩ => ?_,
      fun ht hd hh => ?_⟩
    · rw [Port.taskIndicator_task hw ht]; rfl
    · rw [Port.taskIndicator_done hw ht hd]; rfl
    · rw [Port.taskIndicator_here hw ha hp]; rfl
    · rw [Port.taskIndicator_none ht hd hh, Option.getD_none]
      exact ⟨fun hint => if_pos hint, fun hint => if_neg hint⟩
  case ring =>
    intro shown r t
    have hshown : State.showDisplaysOn s₀ s (List.range 8) = shown := rfl
    clear_value shown
    refine ⟨fun x hx => (State.finish_busy (s₀ := s₀) hx).trans (by rw [hshown]), fun hx => ?_⟩
    obtain ⟨u, e, hu, haddress, hring, hempty⟩ := State.finish_idle (s₀ := s₀) hx
    rw [hshown] at hring hempty
    have e : t = u.arbitrate := e
    clear_value t
    subst e
    refine ⟨fun hq => ?_, fun x before after hp hb => ⟨fun y rest hxf hf => ?_, fun y rest hxe he => ?_,
      fun a rest hxr hr => ?_, fun q rest hxn hn => ?_⟩⟩
    · rw [State.arbitrate_empty hu fun x => (hempty x).2 (hq x), hring]
    all_goals
      have hpointer : u.ring.pointer.fromHere = before ++ x :: after := by rw [hring]; exact hp
      have hbefore : ∀ y ∈ before, u.queueEmpty y := fun y hy => (hempty y).2 (hb y hy)
      subst x
    · have sent := State.sendFrom_forward (s := u) (u := y) (rest := rest) (by rw [hring]; exact hf)
      rw [State.arbitrate_sends hu hpointer hbefore sent, hring]
    · have sent := State.sendFrom_field (s := u) (e := y) (rest := rest) (by rw [hring]; exact he)
      rw [State.arbitrate_sends hu hpointer hbefore sent, hring, haddress]
    · have sent := State.sendFrom_reply (s := u) (a := a) (rest := rest) (by rw [hring]; exact hr)
      rw [State.arbitrate_sends hu hpointer hbefore sent, hring, haddress]
    · have sent := State.sendFrom_notice (s := u) (q := q) (rest := rest) (by rw [hring]; exact hn)
      rw [State.arbitrate_sends hu hpointer hbefore sent, hring, haddress]

/-- Settles O13: the touched carousel's timer is the tested one, by whether R74's conditions hold. -/
theorem idleSweepTimerFollowsItsConditions : Obligations.IdleSweepTimerFollowsItsConditions := by
  intro s₀ s k hk ht c holds
  have hiff : s.idleConditions k = true ↔ holds := s.idleConditions_iff k
  rw [State.finish_carousel, State.idleTests_carousel hk ht]
  refine ⟨fun h hn => ?_, fun h n hn => ?_, fun h => ?_⟩
  · rw [Carousel.sweepTested, hiff.2 h]
    exact congrArg (fun o => some (Option.getD o _)) hn
  · rw [Carousel.sweepTested, hiff.2 h]
    exact congrArg (fun o => some (Option.getD o _)) hn
  · rw [Carousel.sweepTested, Bool.eq_false_iff.2 (mt hiff.1 h)]
    rfl

/-! ## The field command queue (R143) -/

theorem fieldJoin_replace {e x : FieldEntry} {before after : List FieldEntry} (hx : x.target = e.target)
    (hb : ∀ y ∈ before, y.target ≠ e.target) :
    fieldJoin e (before ++ x :: after) = before ++ e :: after := by
  induction before with
  | nil => simp only [List.nil_append, fieldJoin, if_pos hx]
  | cons y ys ih =>
    simp only [List.forall_mem_cons] at hb
    simp only [List.cons_append, fieldJoin, if_neg hb.1, ih hb.2]

theorem fieldJoin_append {e : FieldEntry} {q : List FieldEntry} (hq : ∀ y ∈ q, y.target ≠ e.target) :
    fieldJoin e q = q ++ [e] := by
  induction q with
  | nil => rfl
  | cons y ys ih =>
    simp only [List.forall_mem_cons] at hq
    simp only [List.cons_append, fieldJoin, if_neg hq.1, ih hq.2]

theorem State.queueField_of_dest {s : State} {x : FieldTarget} {d : Nat} (hd : s.fieldDest x = some d)
    (c : FieldCommand) :
    s.queueField x c = { s with ring := { s.ring with field := fieldJoin ⟨x, c, d⟩ s.ring.field } } := by
  simp only [State.queueField, hd]

theorem State.queueField_noDest {s : State} {x : FieldTarget} (hd : s.fieldDest x = none) (c : FieldCommand) :
    s.queueField x c = s := by
  simp only [State.queueField, hd]

/-- Settles O14. -/
theorem fieldQueueHoldsOneEntryPerTarget : Obligations.FieldQueueHoldsOneEntryPerTarget := by
  refine ⟨fun s x c d hd => ⟨fun before after e hq he hb => ?_, fun hq => ?_⟩,
    fun s x c hd => State.queueField_noDest hd c, fun _ _ => rfl, fun _ _ _ => ⟨rfl, rfl, rfl⟩⟩
  · rw [State.queueField_of_dest hd, hq, fieldJoin_replace he hb]
  · rw [State.queueField_of_dest hd, fieldJoin_append hq]

/-! ## Notices (R170 to R172) -/

theorem saturate_eq_min (limit n : Nat) : saturate limit n = min limit (n + 1) := by
  unfold saturate
  split <;> omega

theorem nextSequence_eq (n : Nat) : nextSequence n = if n < 65535 then n + 1 else 1 := by
  unfold nextSequence
  split_ifs <;> omega

theorem QueuedNotice.absorb_of_not_overflow {q : QueuedNotice} (h : q.notice.isOverflow = false) : q.absorb = q := by
  obtain ⟨n, x⟩ := q
  cases x <;> first | rfl | cases h

theorem absorb_append_overflow {before : List QueuedNotice} (hb : ∀ q ∈ before, q.notice.isOverflow = false)
    (n d : Nat) (c : NoticeClass) (k : Nat) :
    List.map QueuedNotice.absorb (before ++ [⟨n, .overflow d c k⟩]) =
      before ++ [⟨n, .overflow (min 255 (d + 1)) c k⟩] := by
  have newest (q : Nat) : QueuedNotice.absorb ⟨q, .overflow d c k⟩ = ⟨q, .overflow (saturate 255 d) c k⟩ := rfl
  have same : before.map QueuedNotice.absorb = before :=
    (List.map_congr_left fun q hq => QueuedNotice.absorb_of_not_overflow (hb q hq)).trans (List.map_id' before)
  rw [List.map_append, same, List.map_singleton, newest, saturate_eq_min]

/-- Settles O15: the four ends of a notice produced, then each notice's class, number and fields as they are laid
out. -/
theorem noticesArePlacedOrCounted : Obligations.NoticesArePlacedOrCounted := by
  refine ⟨fun s n hok => ?produced, ?layouts⟩
  case produced =>
    obtain ⟨-, hnewest, -⟩ := hok
    refine ⟨fun hoff => ?_, fun hon => ⟨fun q before d x y hq => ?_, fun hno => ?_⟩⟩
    · simp only [State.notify, hoff, Bool.not_false, if_true]
    · have hb : ∀ z ∈ before, z.notice.isOverflow = false := by simpa [hq] using hnewest
      have hany : s.ring.notices.any (fun q => q.notice.isOverflow) = true := by simp [hq, Notice.isOverflow]
      rw [State.notify, if_neg (by simp [hon]), if_pos hany, hq, absorb_append_overflow hb, State.loseNotice,
        saturate_eq_min]
    · have hany : ¬s.ring.notices.any (fun q => q.notice.isOverflow) = true := by simpa using hno
      intro next
      have hnext : nextSequence s.command.noticeSequence = next := nextSequence_eq _
      refine ⟨fun hl => ?_, fun hl => ?_⟩
      · rw [State.notify, if_neg (by simp [hon]), if_neg hany, if_pos hl, State.placeNotice, hnext]
      · rw [State.notify, if_neg (by simp [hon]), if_neg hany, if_neg (by omega), State.loseNotice, State.placeNotice,
          saturate_eq_min, hnext]
  case layouts => 
    intro lays one two
    refine ⟨?_, ?_, ?_, ?_, ?_, ?_, ?_, ?_, ?_, ?_, ?_, ?_, ?_, ?_, ?_, ?_, ?_, ?_, ?_, ?_, ?_, ?_, ?_, ?_, ?_, ?_, rfl,
      rfl, rfl, rfl⟩ <;> intros <;> exact ⟨rfl, rfl, rfl⟩

end Sys2Proof.Machine

/-! # The family of the line: commands and telegrams

A command's payload is read back field by field. A telegram is then followed through R136's tests to the disposition it
meets. -/

namespace Sys2Proof.Machine

/-! ## A command's payload reads back (R164, R180) -/

theorem parseCommand_of_arguments {src : Nat} {n : Byte} {args : List Byte} {c : Instr}
    (h : parseArguments src n.toNat args = some c) : parseCommand src (n :: args) = .command c := by
  simp only [parseCommand, h]

theorem parseBytes_read {zs : List Nat} (h : zs.all byte1 = true) (beyond : List Byte) :
    parseBytes zs.length (zs.map byteOf ++ beyond) = some zs := by
  induction zs with
  | nil => rfl
  | cons z zs ih =>
    simp only [List.all_cons, Bool.and_eq_true] at h
    simp only [List.length_cons, List.map_cons, List.cons_append, parseBytes, ih h.2, Option.map_some, byteOf_read h.1]

theorem parseSlotArgs_read {rs : List SlotArg} (h : rs.all slotArgFits = true) (beyond : List Byte) :
    parseSlotArgs rs.length (rs.flatMap slotArgBytes ++ beyond) = some rs := by
  induction rs with
  | nil => rfl
  | cons r rs ih =>
    simp only [List.all_cons, Bool.and_eq_true, slotArgFits] at h
    obtain ⟨⟨⟨⟨⟨⟨hslot, htarget⟩, htag⟩, harticle⟩, hweek⟩, hyear⟩, hrest⟩ := h
    simp only [List.length_cons, List.flatMap_cons, slotArgBytes, be1, be2, be3, be4, List.cons_append,
      List.nil_append, parseSlotArgs, ih hrest, Option.map_some, num2_read hslot,
      byteOf_read htarget, num4_read htag, num3_read harticle, byteOf_read hweek, byteOf_read hyear]

theorem parseLineArgs_read {ls : List LineArg} (h : ls.all lineArgFits = true) (beyond : List Byte) :
    parseLineArgs ls.length (ls.flatMap lineArgBytes ++ beyond) = some ls := by
  induction ls with
  | nil => rfl
  | cons l ls ih =>
    simp only [List.all_cons, Bool.and_eq_true, lineArgFits] at h
    obtain ⟨⟨⟨harticle, hquantity⟩, hrule⟩, hrest⟩ := h
    simp only [List.length_cons, List.flatMap_cons, lineArgBytes, be1, be3, List.cons_append, List.nil_append,
      parseLineArgs, ih hrest, Option.map_some, num3_read harticle, byteOf_read hquantity,
      byteOf_read hrule]

theorem byteOf_length {α : Type} {xs : List α} {n : Nat} (h : xs.length ≤ n) (hn : n < 256) :
    (byteOf xs.length).toNat = xs.length :=
  byteOf_read (by simp only [byte1, decide_eq_true_eq]; omega)

theorem yesNo_read (b : Bool) : flagOf (if b = true then 1#8 else 0#8) = b := by cases b <;> rfl

theorem bitVec16_read (z : BitVec 16) : BitVec.ofNat 16 (num2 (byteOf (z.toNat / 256)) (byteOf z.toNat)) = z := by
  rw [num2_read (by simp only [byte2, decide_eq_true_eq]; exact z.isLt), BitVec.ofNat_toNat, BitVec.setWidth_eq]

theorem bitVec32_read (x : BitVec 32) : BitVec.ofNat 32 (num4 (byteOf (x.toNat / 16777216)) (byteOf (x.toNat / 65536))
    (byteOf (x.toNat / 256)) (byteOf x.toNat)) = x := by
  rw [num4_read (by simp only [byte4, decide_eq_true_eq]; exact x.isLt), BitVec.ofNat_toNat, BitVec.setWidth_eq]

/-- A well-formed command's payload reads back, whatever follows its layout. -/
theorem parseCommand_commandPayload {c : Instr} {src : Nat} (hw : c.wellFormed = true)
    (hs : c.commandSource = some src) (hb : ∀ p, c ≠ .badCommandNumber src p)
    (hl : ∀ n bytes, c ≠ .loadRecord src n bytes) (beyond : List Byte) :
    parseCommand src (commandPayload c ++ beyond) = .command c := by
  cases c with
  | badCommandNumber n p => cases hs; exact absurd rfl (hb p)
  | loadRecord n k bytes => cases hs; exact absurd rfl (hl k bytes)
  | setZoneMap n k f zones =>
    cases hs
    simp only [Instr.wellFormed, Bool.and_eq_true, decide_eq_true_eq] at hw
    obtain ⟨⟨⟨⟨-, hk⟩, hf⟩, hlen⟩, hz⟩ := hw
    apply parseCommand_of_arguments
    simp [parseArguments, be1, byteOf_read hk, byteOf_read hf, byteOf_length hlen, parseBytes_read hz]
  | loadSlots n rs =>
    cases hs
    simp only [Instr.wellFormed, Bool.and_eq_true, decide_eq_true_eq] at hw
    obtain ⟨⟨-, hlen⟩, hr⟩ := hw
    apply parseCommand_of_arguments
    simp [parseArguments, be1, byteOf_length hlen, parseSlotArgs_read hr]
  | order n id pr ch co po li ls =>
    cases hs
    simp only [Instr.wellFormed, Bool.and_eq_true, decide_eq_true_eq] at hw
    obtain ⟨⟨⟨⟨⟨⟨⟨-, hid⟩, hpr⟩, hch⟩, hpo⟩, hli⟩, hlen⟩, hls⟩ := hw
    apply parseCommand_of_arguments
    simp [parseArguments, be1, be2, yesNo, yesNo_read, num2_read hid, byteOf_read hpr, byteOf_read hch, byteOf_read hpo,
      num2_read hli, byteOf_length hlen, parseLineArgs_read hls]
  | auditSet n k m z q a =>
    cases hs
    simp only [Instr.wellFormed, Bool.and_eq_true] at hw
    obtain ⟨⟨⟨-, hk⟩, hm⟩, hq⟩ := hw
    apply parseCommand_of_arguments
    simp [parseArguments, be1, be2, yesNo, yesNo_read, byteOf_read hk, byteOf_read hm, byteOf_read hq, bitVec16_read]
  | loadClose n x =>
    cases hs
    apply parseCommand_of_arguments
    simp [parseArguments, be4, bitVec32_read]
  | holdReleaseAccept n i =>
    cases hs
    simp only [Instr.wellFormed, Bool.and_eq_true] at hw
    apply parseCommand_of_arguments
    simp [parseArguments, be1, be2, be3, be4, num2_read hw.2, byteOf_read (n := 0) rfl]
  | holdReleaseClear n i =>
    cases hs
    simp only [Instr.wellFormed, Bool.and_eq_true] at hw
    apply parseCommand_of_arguments
    simp [parseArguments, be1, be2, be3, be4, num2_read hw.2, byteOf_read (n := 1) rfl]
  | holdReleaseSet n i tag a w y =>
    cases hs
    simp only [Instr.wellFormed, Bool.and_eq_true] at hw
    obtain ⟨⟨⟨⟨⟨-, hi⟩, htag⟩, ha⟩, hweek⟩, hyear⟩ := hw
    apply parseCommand_of_arguments
    simp [parseArguments, be1, be2, be3, be4, num2_read hi, num4_read htag, num3_read ha, byteOf_read hweek,
      byteOf_read hyear, byteOf_read (n := 2) rfl]
  | identify | readAuditLog | bankCopy | bankSwitch | restartOps | restartAll => cases hs; rfl
  | query | setCalendar | setNotices | configureCarousel | setTiming | carouselOnline | carouselOffline | clearFault
  | reclaim | replanCarousel | jogRequest | setPort | portMode | loadOpen | orderCancel | shortClose | setLanes
  | laneRelease | laneClearForeign =>
    cases hs
    simp only [Instr.wellFormed, Bool.and_eq_true] at hw
    apply parseCommand_of_arguments
    simp [parseArguments, be1, be2, be4, yesNo, yesNo_read, byteOf_read, num2_read, num4_read, hw]
  | _ => cases hs

theorem parseCommand_loadRecord (src : Nat) {n : Nat} (bytes : List Byte) (h : n < 256) :
    parseCommand src (commandPayload (.loadRecord src n bytes)) = .command (.loadRecord src n bytes) := by
  apply parseCommand_of_arguments
  simp [parseArguments, be1, byteOf_read (n := n) (by simpa [byte1] using h)]

/-- Settles O9. -/
theorem commandPayloadReadsBack : Obligations.CommandPayloadReadsBack :=
  ⟨fun _ _ hw hs hb hl => parseCommand_commandPayload hw hs hb hl,
    fun src _ bytes h => parseCommand_loadRecord src bytes h⟩

/-! ## A command that arrives (R163, R164) -/

theorem commandPayload_ne_nil {c : Instr} {src : Nat} (hs : c.commandSource = some src)
    (hb : ∀ p, c ≠ .badCommandNumber src p) : commandPayload c ≠ [] := by
  cases c with
  | badCommandNumber n p => cases hs; exact absurd rfl (hb p)
  | _ => first | exact List.cons_ne_nil _ _ | cases hs

theorem commandNumber_append {p : List Byte} (h : p ≠ []) (q : List Byte) :
    commandNumber (p ++ q) = commandNumber p := by
  cases p with
  | nil => exact absurd rfl h
  | cons b p => rfl

theorem payloadAnswer_of_command {src : Nat} {p : List Byte} {c : Instr} (h : parseCommand src p = .command c) :
    payloadAnswer src p = answerTo c := by
  funext s; simp only [payloadAnswer, h]

theorem payloadAnswer_of_spellsNone {src : Nat} {p : List Byte} (h : spellsNone src p = true) (s : State) :
    payloadAnswer src p s = s.refuse .badArgument := by
  unfold spellsNone at h
  unfold payloadAnswer
  cases hp : parseCommand src p with
  | command c => simp [hp] at h
  | bad n => rfl

/-- A command taken at once is one that joins the FIFO and leaves it in the same event. -/
theorem State.issue_payloadAnswer (s : State) (src : Nat) (p : List Byte) :
    s.issue src p (payloadAnswer src p) = (s.intakeJoin ⟨src, p, false⟩).pumpAll := by
  unfold State.issue
  split
  case isFalse => rfl
  case isTrue h =>
    simp only [Bool.and_eq_true, List.isEmpty_iff] at h
    obtain ⟨hempty, htake⟩ := h
    have hjoin : s.intakeJoin ⟨src, p, false⟩ = { s with command := { s.command with intake := [⟨src, p, false⟩] } } := by
      simp [State.intakeJoin, hempty]
    have hleave : ({ s with command := { s.command with intake := [] } } : State) = s := by rw [← hempty]
    have htaken : (s.intakeJoin ⟨src, p, false⟩).pumpAll = (s.takeCommand ⟨src, p, false⟩).pumpAll := by
      rw [hjoin, ((pumpAll_cases _).2 _ _ rfl).2 (by simpa [State.mayTake] using htake)]
      exact congrArg (fun u : State => (u.takeCommand ⟨src, p, false⟩).pumpAll) hleave
    have hlast : (s.takeCommand ⟨src, p, false⟩).command.intake = [] := by
      have le := takeCommand_intakeLe s ⟨src, p, false⟩
      rw [hempty] at le
      exact List.length_eq_zero_iff.1 (Nat.le_zero.1 le)
    rw [htaken, (pumpAll_cases _).1 hlast]
    rfl

theorem parseCommand_spelled {c : Instr} {src : Nat} (hw : c.wellFormed = true) (hs : c.commandSource = some src)
    (hb : ∀ p, c ≠ .badCommandNumber src p) : parseCommand src (commandPayload c) = .command c := by
  by_cases hl : ∃ n bytes, c = .loadRecord src n bytes
  · obtain ⟨n, bytes, rfl⟩ := hl
    simp only [Instr.wellFormed, Bool.and_eq_true, byte1, decide_eq_true_eq] at hw
    exact parseCommand_loadRecord src bytes hw.1.2
  · simp only [not_exists] at hl
    simpa using parseCommand_commandPayload hw hs hb hl []

theorem exec_of_payload {c : Instr} {src : Nat} {s : State} (hw : c.wellFormed = true)
    (hs : c.commandSource = some src) :
    exec c s = served (fun t => t.issue src (commandPayload c) (payloadAnswer src (commandPayload c))) s := by
  by_cases hb : ∃ p, c = .badCommandNumber src p
  · obtain ⟨p, rfl⟩ := hb
    rw [exec_badCommandNumber]; rfl
  · simp only [not_exists] at hb
    rw [exec_command hs hb, payloadAnswer_of_command (parseCommand_spelled hw hs hb)]
    rfl

/-! ## Good telegrams (R136) -/

section
variable {s : State} {t : Telegram} {check : BitVec 16}

theorem State.receive_good (hg : goodTelegram t check) :
    s.receive t check = if s.serving then s.takeGood t else s.repeatGood t := by
  obtain ⟨hlen, hcheck⟩ := hg
  simp only [State.receive, Nat.not_lt.2 hlen, if_false, hcheck, ne_eq, not_true]

theorem exec_good (hs : s.serving = true) (hg : goodTelegram t check) :
    exec (.telegramReceived t check) s = .next (State.finish s (s.takeGood t)) := by
  rw [exec_telegramReceived, lineEvent_eq (State.serving_resetHeld hs), State.receive_good hg, if_pos hs]

theorem State.takeGood_return (h : lowSix t.source = s.address) : s.takeGood t = s.takeReturn t := if_pos h

variable (hsource : lowSix t.source ≠ s.address) (hhop : lowSix t.hop ≠ 0)
include hsource hhop

theorem State.takeGood_addressed (h : lowSix t.dest = s.address) : s.takeGood t = s.takeAddressed t := by
  rw [State.takeGood, if_neg hsource, if_neg hhop, if_pos h]

theorem State.takeGood_broadcast (ha : s.address ≠ 63) (h : lowSix t.dest = 63) :
    s.takeGood t = s.takeBroadcastTelegram t := by
  rw [State.takeGood, if_neg hsource, if_neg hhop, if_neg (by rw [h]; exact Ne.symm ha), if_pos h]

end

theorem State.serving_address {s : State} (h : s.serving = true) : s.address ≠ 0 ∧ s.address ≠ 63 := by
  simp only [State.serving, Bool.and_eq_true, bne_iff_ne, ne_eq] at h
  tauto

theorem exec_classified {s : State} {t : Telegram} {check : BitVec 16} (h : s.classifies t)
    (hg : goodTelegram t check) :
    exec (.telegramReceived t check) s = .next (State.finish s (s.classify t)) := by
  obtain ⟨hserving, hsource, hhop, hdest, hbroadcast⟩ := h
  rw [exec_good hserving hg, State.takeGood, if_neg hsource, if_neg hhop, if_neg hdest, if_neg hbroadcast]

theorem exec_commandTelegram {s : State} {t : Telegram} {check : BitVec 16} (hs : s.serving = true)
    (hg : goodTelegram t check) (hsource : lowSix t.source ≠ s.address) (hhop : lowSix t.hop ≠ 0)
    (hdest : lowSix t.dest = s.address) (hkind : lowSix t.kind = 1) :
    exec (.telegramReceived t check) s =
      .next (State.finish s (s.intakeJoin ⟨lowSix t.source, t.payload, false⟩).pumpAll) := by
  rw [exec_good hs hg, State.takeGood_addressed hsource hhop hdest]
  exact congrArg (fun u : State => Host.Outcome.next (State.finish s u)) (if_pos hkind)

/-- Settles O10. -/
theorem commandTelegramActsAsItsRow : Obligations.CommandTelegramActsAsItsRow := by
  intro c src t check s hw hs hserving hg hsource hself hhop hdest hkind
  have htelegram := exec_commandTelegram hserving hg (by rwa [hsource]) hhop hdest hkind
  rw [hsource, ← State.issue_payloadAnswer] at htelegram
  refine ⟨fun hp => ?_, fun beyond hp haccepts hb hl => ?_⟩
  · rw [htelegram, exec_of_payload hw hs, served_eq hserving, hp]
  · have hparse := parseCommand_commandPayload hw hs hb hl beyond
    have hnumber := commandNumber_append (commandPayload_ne_nil hs hb) beyond
    obtain ⟨-, hempty, hreplies⟩ := haccepts
    rw [htelegram, hp, payloadAnswer_of_command hparse, exec_command hs hb, command, served_eq hserving]
    simp [State.issue, hempty, State.mayTake, hreplies, hnumber]

end Sys2Proof.Machine

/-! # The family of the line: how telegrams are disposed of -/

namespace Sys2Proof.Machine

/-! ## Line counters and the forward queue (R147, R142) -/

theorem State.countFrameError_eq (s : State) :
    s.countFrameError = s.count (fun c => { c with frameErrors := min 65535 (c.frameErrors + 1) }) := by
  simp only [State.countFrameError, saturate_eq_min]

theorem State.countCheckError_eq (s : State) :
    s.countCheckError = s.count (fun c => { c with checkErrors := min 65535 (c.checkErrors + 1) }) := by
  simp only [State.countCheckError, saturate_eq_min]

theorem State.countHopExpiry_eq (s : State) :
    s.countHopExpiry = s.count (fun c => { c with hopExpiries := min 65535 (c.hopExpiries + 1) }) := by
  simp only [State.countHopExpiry, saturate_eq_min]

theorem State.countReturn_eq (s : State) :
    s.countReturn = s.count (fun c => { c with returns := min 65535 (c.returns + 1) }) := by
  simp only [State.countReturn, saturate_eq_min]

theorem State.countGuarded_eq (s : State) :
    s.countGuarded = s.count (fun c => { c with guarded := min 65535 (c.guarded + 1) }) := by
  simp only [State.countGuarded, saturate_eq_min]

theorem State.countDiscard_eq (s : State) :
    s.countDiscard = s.count (fun c => { c with discards := min 65535 (c.discards + 1) }) := by
  simp only [State.countDiscard, saturate_eq_min]

theorem State.forwardJoin_eq (s : State) (t : Telegram) : s.forwardJoin t = s.forwards t := by
  unfold State.forwardJoin State.forwards
  by_cases h : s.ring.forward.length < 8
  · rw [if_neg (Nat.not_le.2 h), if_pos h]
  · rw [if_pos (Nat.not_lt.1 h), if_neg h]
    simp only [State.countOverrun, saturate_eq_min]

@[simp] theorem State.forwardJoin_command (s : State) (t : Telegram) : (s.forwardJoin t).command = s.command := by
  unfold State.forwardJoin; split <;> rfl

/-! ## Owners of nodes (R137, R140) -/

theorem eachCarousel_find {p : CarouselNo → Bool} {k : CarouselNo} (hk : p k = true) (hu : ∀ j, p j = true → j = k) :
    eachCarousel.find? p = some k := by
  obtain ⟨j, hj⟩ := Option.isSome_iff_exists.1 (List.find?_isSome.2 ⟨k, mem_eachCarousel k, hk⟩)
  rw [hj, hu j (List.find?_some hj)]

theorem eachCarousel_find_none {p : CarouselNo → Bool} (h : ∀ k, p k = false) : eachCarousel.find? p = none :=
  List.find?_eq_none.2 fun k _ => by simp [h k]

theorem isMotionKind_iff (kind : Nat) : isMotionKind kind = true ↔ kind = 20 ∨ kind = 21 ∨ kind = 22 := by
  simp only [isMotionKind, kindMove, kindStop, kindJog, Bool.or_eq_true, beq_iff_eq, or_assoc]

section
variable {s : State} {k : CarouselNo} {node : Nat}

theorem Carousel.usesNode_iff (c : Carousel) :
    c.usesNode node = true ↔ c.drive = some node ∨ c.port = some node ∨ c.gate = some node := by
  simp only [Carousel.usesNode, Bool.or_eq_true, decide_eq_true_eq, or_assoc]

theorem State.driveOf_of_distinct (hd : NodesDistinct s) (h : (s.carousel k).drive = some node) :
    s.driveOf node = some k := by
  refine eachCarousel_find (by simpa using h) fun j hj => hd.carousels j k node ?_ ?_
  · exact (Carousel.usesNode_iff _).2 (.inl (by simpa using hj))
  · exact (Carousel.usesNode_iff _).2 (.inl h)

theorem State.portOf_of_distinct (hd : NodesDistinct s) (h : (s.carousel k).port = some node) :
    s.portOf node = some k := by
  refine eachCarousel_find (by simpa using h) fun j hj => hd.carousels j k node ?_ ?_
  · exact (Carousel.usesNode_iff _).2 (.inr (.inl (by simpa using hj)))
  · exact (Carousel.usesNode_iff _).2 (.inr (.inl h))

theorem State.driveOf_none (h : ∀ k : CarouselNo, (s.carousel k).drive ≠ some node) : s.driveOf node = none :=
  eachCarousel_find_none fun k => by simpa using h k

theorem State.portOf_none (h : ∀ k : CarouselNo, (s.carousel k).port ≠ some node) : s.portOf node = none :=
  eachCarousel_find_none fun k => by simpa using h k

variable (kind : Nat) (payload : List Byte)

theorem State.ownerEvent_of_uses (hd : NodesDistinct s) (h : (s.carousel k).usesNode node = true) :
    s.ownerEvent node kind payload = carouselEvent (s.carousel k) k node kind payload := by
  have hfind : eachCarousel.find? (fun k : CarouselNo => (s.carousel k).usesNode node) = some k :=
    eachCarousel_find h fun j hj => hd.carousels j k node hj h
  simp only [State.ownerEvent, hfind]

theorem State.ownerEvent_drive (hd : NodesDistinct s) (h : (s.carousel k).drive = some node) :
    s.ownerEvent node kind payload = driveEvent k kind payload := by
  rw [State.ownerEvent_of_uses kind payload hd ((Carousel.usesNode_iff _).2 (.inl h)), carouselEvent, if_pos h]

theorem State.ownerEvent_port (hd : NodesDistinct s) (h : (s.carousel k).port = some node) :
    s.ownerEvent node kind payload = portEvent k kind payload := by
  rw [State.ownerEvent_of_uses kind payload hd ((Carousel.usesNode_iff _).2 (.inr (.inl h))), carouselEvent,
    if_neg fun hdrive => hd.driveNotPort k node hdrive h, if_pos h]

theorem State.ownerEvent_gate (hd : NodesDistinct s) (h : (s.carousel k).gate = some node) :
    s.ownerEvent node kind payload = gateEvent k kind payload := by
  rw [State.ownerEvent_of_uses kind payload hd ((Carousel.usesNode_iff _).2 (.inr (.inr h))), carouselEvent,
    if_neg fun hdrive => hd.driveNotGate k node hdrive h, if_neg fun hport => hd.portNotGate k node hport h, if_pos h]

theorem State.ownerEvent_conveyor (hd : NodesDistinct s) (h : s.lanes.conveyor = some node) :
    s.ownerEvent node kind payload = conveyorEvent kind payload := by
  have hfind : eachCarousel.find? (fun k : CarouselNo => (s.carousel k).usesNode node) = none :=
    eachCarousel_find_none fun k => hd.conveyor k node h
  simp only [State.ownerEvent, hfind, h, if_true]

theorem State.ownerEvent_unconfigured (h : s.unconfigured node) : s.ownerEvent node kind payload = none := by
  obtain ⟨hconveyor, hcarousels⟩ := h
  simp only [State.ownerEvent, eachCarousel_find_none hcarousels, hconveyor, if_false]

end

/-! ## Returns (R137) -/

section
variable {s : State} {k : CarouselNo} {kind dest : Nat} (payload : List Byte)

theorem State.returnEvent_motion (h : kind = 20 ∨ kind = 21 ∨ kind = 22) :
    s.returnEvent kind dest payload = (s.driveOf dest).map .returnedMotionTelegram :=
  if_pos ((isMotionKind_iff kind).2 h)

theorem State.returnEvent_display :
    s.returnEvent 28 dest payload = (s.portOf dest).map .returnedDisplay := rfl

theorem State.returnEvent_laneOpen (h : s.lanes.conveyor = some dest) (b : Byte) :
    s.returnEvent 34 dest (b :: payload) = some (.returnedLaneOpen b.toNat) := by
  simp [State.returnEvent, isMotionKind, kindMove, kindStop, kindJog, kindDisplay, kindLaneOpen, h]

/-- A return that no drive, port or conveyor was sent is handed to none. -/
theorem State.returnEvent_none
    (hdrive : kind = 20 ∨ kind = 21 ∨ kind = 22 → ∀ k : CarouselNo, (s.carousel k).drive ≠ some dest)
    (hport : kind = 28 → ∀ k : CarouselNo, (s.carousel k).port ≠ some dest)
    (hconveyor : kind = 34 → s.lanes.conveyor ≠ some dest) : s.returnEvent kind dest payload = none := by
  unfold State.returnEvent
  split
  · rename_i hm
    rw [State.driveOf_none (hdrive ((isMotionKind_iff kind).1 hm))]; rfl
  · split
    · rename_i hk
      rw [State.portOf_none (hport hk)]; rfl
    · exact if_neg fun ⟨hk, hc⟩ => hconveyor hk hc

end

theorem State.handSome_some (s : State) (c : Instr) : s.handSome (some c) = s.hand [c] := rfl

theorem State.handSome_none (s : State) : s.handSome none = s := by
  simp [State.handSome, State.hand]

/-- Settles O17. -/
theorem returnsAreRemovedAndHandedOn : Obligations.ReturnsAreRemovedAndHandedOn := by
  intro s t check hs hd hg hsource counted motion
  have hcounted : counted = s.countReturn := (State.countReturn_eq s).symm
  have htaken : exec (.telegramReceived t check) s = .next (State.finish s
      (counted.handSome (s.returnEvent (lowSix t.kind) (lowSix t.dest) t.payload))) := by
    rw [exec_good hs hg, State.takeGood_return hsource, hcounted]; rfl
  clear_value counted
  refine ⟨fun k hm hk => ?drive, fun k hkind hk => ?port, fun b rest hkind hc hp => ?conveyor, fun h1 h2 h3 => ?none⟩
  case drive =>
    rw [htaken, State.returnEvent_motion _ hm, State.driveOf_of_distinct hd hk]; rfl
  case port =>
    rw [htaken, hkind, State.returnEvent_display, State.portOf_of_distinct hd hk]; rfl
  case conveyor =>
    rw [htaken, hkind, hp, State.returnEvent_laneOpen _ hc, State.handSome_some]
  case none =>
    rw [htaken, State.returnEvent_none _ h1 h2 h3, State.handSome_none]

/-! ## Classification (R139 to R141) -/

section
variable {s : State} {t : Telegram} {check : BitVec 16} {k : CarouselNo}

theorem State.guards_of (hd : NodesDistinct s) (h : s.guardedFor t k) : s.guards t = some k := by
  obtain ⟨hkind, hdrive⟩ := h
  rw [State.guards, if_pos ((isMotionKind_iff _).2 hkind), State.driveOf_of_distinct hd hdrive]

theorem State.guards_none (h : ∀ k, ¬s.guardedFor t k) : s.guards t = none := by
  unfold State.guards
  split
  · rename_i hm
    exact State.driveOf_none fun k hk => h k ⟨(isMotionKind_iff _).1 hm, hk⟩
  · rfl

theorem exec_guarded (hc : s.classifies t) (hg : goodTelegram t check) (hd : NodesDistinct s)
    (h : s.guardedFor t k) :
    exec (.telegramReceived t check) s = .next (State.finish s (s.guardedTelegram k t)) := by
  rw [exec_classified hc hg, State.classify, State.guards_of hd h]

theorem exec_unguarded (hc : s.classifies t) (hg : goodTelegram t check) (h : ∀ k, ¬s.guardedFor t k) :
    exec (.telegramReceived t check) s = .next (State.finish s (s.dispose t)) := by
  rw [exec_classified hc hg, State.classify, State.guards_none h]

/-- Under PASS guarding makes no difference. -/
theorem State.classify_pass (h : s.entryFor t = .pass) : s.classify t = s.forwardJoin t := by
  have hdisposition : s.disposition (lowSix t.kind) = .pass := h
  unfold State.classify
  split
  · simp only [State.guardedTelegram, hdisposition]
  · simp only [State.dispose, hdisposition]

theorem State.dispose_take (h : s.entryFor t = .take) : s.dispose t =
    s.deliver (s.ownerEvent (lowSix t.source) (lowSix t.kind) t.payload) State.countDiscard := by
  have hdisposition : s.disposition (lowSix t.kind) = .take := h
  simp only [State.dispose, hdisposition]

theorem State.dispose_observe (h : s.entryFor t = .observe) : s.dispose t =
    (s.forwards t).deliver (s.ownerEvent (lowSix t.source) (lowSix t.kind) t.payload) id := by
  have hdisposition : s.disposition (lowSix t.kind) = .observe := h
  simp only [State.dispose, hdisposition, State.forwardJoin_eq]

theorem State.dispose_drop (h : s.entryFor t = .drop) : s.dispose t = s.countDiscard := by
  have hdisposition : s.disposition (lowSix t.kind) = .drop := h
  simp only [State.dispose, hdisposition]

end

/-- Settles O19. -/
theorem guardedMotionTelegrams : Obligations.GuardedMotionTelegrams := by
  intro s t check k hc hg hd hguard
  have htaken := exec_guarded hc hg hd hguard
  refine ⟨fun h => ?pass, fun h => ?observe, fun h => ?removed⟩
  case pass =>
    rw [exec_classified hc hg, State.classify_pass h, State.forwardJoin_eq]
  case observe =>
    have hdisposition : s.disposition (lowSix t.kind) = .observe := h
    rw [htaken, State.guardedTelegram, hdisposition]
    simp only [State.forwardJoin_eq]
  case removed =>
    have hguarded : s.guardedTelegram k t = s.countGuarded := by
      obtain h | h := h <;>
        (have hdisposition : s.disposition (lowSix t.kind) = _ := h
         simp only [State.guardedTelegram, hdisposition])
    rw [htaken, hguarded, State.countGuarded_eq]

theorem Telegram.forwarded_hop {t : Telegram} (h : lowSix t.hop ≠ 0) : lowSix t.forwarded.hop + 1 = lowSix t.hop := by
  have hbyte := t.hop.isLt
  simp only [Telegram.forwarded, lowSix, byteOf_toNat] at h ⊢
  omega

/-! ## Owners' layouts (R140) -/

theorem parseTags_short : ∀ (n : Nat) (p : List Byte), p.length < 4 * n → parseTags n p = none
  | 0, _, h => absurd h (Nat.not_lt_zero _)
  | n + 1, a :: b :: c :: d :: rest, h => by
    simp only [List.length_cons] at h
    rw [parseTags, parseTags_short n rest (by omega)]; rfl
  | _ + 1, [], _ | _ + 1, [_], _ | _ + 1, [_, _], _ | _ + 1, [_, _, _], _ => rfl

section
variable {s : State} {t : Telegram}

theorem State.ownerEvent_takes {c : Instr} (hd : NodesDistinct s) (h : OwnerTakes s t c) :
    s.ownerEvent (lowSix t.source) (lowSix t.kind) t.payload = some (some c) := by
  cases h with
  | position k c rest node kind payload => rw [State.ownerEvent_drive _ _ hd node, kind, payload]; rfl
  | arrived k c rest node kind payload => rw [State.ownerEvent_drive _ _ hd node, kind, payload]; rfl
  | driveStatus k n f rest node kind payload => rw [State.ownerEvent_drive _ _ hd node, kind, payload]; rfl
  | curtain k b rest node kind payload => rw [State.ownerEvent_port _ _ hd node, kind, payload]; rfl
  | scan k t3 t2 t1 t0 a2 a1 a0 w y rest node kind payload =>
    rw [State.ownerEvent_port _ _ hd node, kind, payload]; rfl
  | placed k x rest node kind payload => rw [State.ownerEvent_port _ _ hd node, kind, payload]; rfl
  | ready k node kind => rw [State.ownerEvent_port _ _ hd node, kind]; rfl
  | skip k node kind => rw [State.ownerEvent_port _ _ hd node, kind]; rfl
  | arrive l t3 t2 t1 t0 rest node kind payload => rw [State.ownerEvent_conveyor _ _ hd node, kind, payload]; rfl
  | laneEmpty l rest node kind payload => rw [State.ownerEvent_conveyor _ _ hd node, kind, payload]; rfl
  | gate => 
    rename_i k _ _ node kind payload
    rw [State.ownerEvent_gate _ _ hd node, kind, payload]; rfl

theorem State.ownerEvent_short {n : Nat} (hd : NodesDistinct s) (h : OwnerNeeds s t n) (hn : t.payload.length < n) :
    s.ownerEvent (lowSix t.source) (lowSix t.kind) t.payload = some none := by
  generalize t.payload = p at hn ⊢
  cases h with
  | drive k node kind =>
    obtain rfl : p = [] := List.length_eq_zero_iff.1 (by omega)
    rw [State.ownerEvent_drive _ _ hd node]
    obtain kind | kind := kind <;> rw [kind] <;> rfl
  | driveStatus k node kind =>
    rw [State.ownerEvent_drive _ _ hd node, kind]
    match p, hn with
    | [], _ | [_], _ => rfl
  | scan k node kind =>
    rw [State.ownerEvent_port _ _ hd node, kind]
    match p, hn with
    | [], _ | [_], _ | [_, _], _ | [_, _, _], _ | [_, _, _, _], _ | [_, _, _, _, _], _ | [_, _, _, _, _, _], _
    | [_, _, _, _, _, _, _], _ | [_, _, _, _, _, _, _, _], _ => rfl
  | port k node kind =>
    obtain rfl : p = [] := List.length_eq_zero_iff.1 (by omega)
    rw [State.ownerEvent_port _ _ hd node]
    obtain kind | kind := kind <;> rw [kind] <;> rfl
  | button => exact absurd hn (Nat.not_lt_zero _)
  | gate k node kind =>
    rw [State.ownerEvent_gate _ _ hd node, kind]
    match p, hn with
    | [], _ => rfl
    | c :: rest, hn =>
      have hshort := parseTags_short 8 rest (by simp only [List.length_cons] at hn; omega)
      show some ((parseTags 8 rest).map (Instr.gate k c.toNat)) = some none
      rw [hshort]; rfl
  | arrive node kind =>
    rw [State.ownerEvent_conveyor _ _ hd node, kind]
    match p, hn with
    | [], _ | [_], _ | [_, _], _ | [_, _, _], _ | [_, _, _, _], _ => rfl
  | laneEmpty node kind =>
    obtain rfl : p = [] := List.length_eq_zero_iff.1 (by omega)
    rw [State.ownerEvent_conveyor _ _ hd node, kind]; rfl

theorem carouselEvent_none {k : CarouselNo} (h : ∀ n, ¬OwnerNeeds s t n) (p : List Byte) :
    carouselEvent (s.carousel k) k (lowSix t.source) (lowSix t.kind) p = none := by
  unfold carouselEvent
  split
  case isTrue hdrive =>
    have hreport : ¬(lowSix t.kind = kindPosition ∨ lowSix t.kind = kindArrived) := fun hkind => h 1 (.drive k hdrive hkind)
    have hstatus : lowSix t.kind ≠ kindDriveStatus := fun hkind => h 2 (.driveStatus k hdrive hkind)
    rw [not_or] at hreport
    unfold driveEvent
    rw [if_neg hreport.1, if_neg hreport.2, if_neg hstatus]
  case isFalse =>
  split
  case isTrue hport =>
    have hscan : lowSix t.kind ≠ kindScan := fun hkind => h 9 (.scan k hport hkind)
    have hone : ¬(lowSix t.kind = kindPlaced ∨ lowSix t.kind = kindCurtain) := fun hkind => h 1 (.port k hport hkind)
    have hbutton : ¬(lowSix t.kind = kindReady ∨ lowSix t.kind = kindSkip) := fun hkind => h 0 (.button k hport hkind)
    rw [not_or] at hone hbutton
    unfold portEvent
    rw [if_neg hone.2, if_neg hscan, if_neg hone.1, if_neg hbutton.1, if_neg hbutton.2]
  case isFalse =>
  split
  case isTrue hgate => exact if_neg fun hkind => h 33 (.gate k hgate hkind)
  case isFalse => rfl

theorem State.ownerEvent_none (h : ∀ n, ¬OwnerNeeds s t n) (p : List Byte) :
    s.ownerEvent (lowSix t.source) (lowSix t.kind) p = none := by
  unfold State.ownerEvent
  split
  · exact carouselEvent_none h p
  · split
    case isTrue hconveyor =>
      have harrive : lowSix t.kind ≠ kindArrive := fun hkind => h 5 (.arrive hconveyor hkind)
      have hempty : lowSix t.kind ≠ kindLaneEmpty := fun hkind => h 1 (.laneEmpty hconveyor hkind)
      unfold conveyorEvent
      rw [if_neg harrive, if_neg hempty]
    case isFalse => rfl

end

/-! ## The dispositions of a telegram that is not guarded -/

theorem State.deliver_event (s : State) (c : Instr) (f : State → State) : s.deliver (some (some c)) f = s.hand [c] := rfl
theorem State.deliver_short (s : State) (f : State → State) : s.deliver (some none) f = s.countDiscard := rfl
theorem State.deliver_none (s : State) (f : State → State) : s.deliver none f = f s := rfl

section
variable {s : State} {t : Telegram} {check : BitVec 16} (hc : s.classifies t) (hg : goodTelegram t check)
  (hguard : ∀ k, ¬s.guardedFor t k)
include hc hg hguard

theorem exec_take {e : Option (Option Instr)} (h : s.entryFor t = .take)
    (he : s.ownerEvent (lowSix t.source) (lowSix t.kind) t.payload = e) :
    exec (.telegramReceived t check) s = .next (State.finish s (s.deliver e State.countDiscard)) := by
  rw [exec_unguarded hc hg hguard, State.dispose_take h, he]

theorem exec_observe {e : Option (Option Instr)} (h : s.entryFor t = .observe)
    (he : s.ownerEvent (lowSix t.source) (lowSix t.kind) t.payload = e) :
    exec (.telegramReceived t check) s = .next (State.finish s ((s.forwards t).deliver e id)) := by
  rw [exec_unguarded hc hg hguard, State.dispose_observe h, he]

/-- A telegram without an owner: removed and counted under TAKE, forwarded under OBSERVE. -/
theorem exec_unowned (he : s.ownerEvent (lowSix t.source) (lowSix t.kind) t.payload = none) :
    (s.entryFor t = .take → exec (.telegramReceived t check) s = .next (State.finish s s.countDiscard))
    ∧ (s.entryFor t = .observe → exec (.telegramReceived t check) s = .next (State.finish s (s.forwards t))) := by
  refine ⟨fun h => ?_, fun h => ?_⟩
  · rw [exec_take hc hg hguard h he, State.deliver_none]
  · rw [exec_observe hc hg hguard h he, State.deliver_none, id]

end

/-- Settles O18. -/
theorem passingTelegramsAreDisposedOf : Obligations.PassingTelegramsAreDisposedOf := by
  refine ⟨⟨⟨?pass, ?hop⟩, ?owned⟩, ?short⟩
  case pass =>
    intro s t check hc hg h
    rw [exec_classified hc hg, State.classify_pass h, State.forwardJoin_eq]
  case hop =>
    exact fun t h => ⟨rfl, rfl, rfl, rfl, Telegram.forwarded_hop h⟩
  case owned =>
    intro s t check hc hg hguard discarded
    have hdiscarded : s.countDiscard = discarded := State.countDiscard_eq s
    clear_value discarded
    subst hdiscarded
    refine ⟨fun c hd ho => ?_, fun hu => ?_, fun h => ?_⟩
    · have he := State.ownerEvent_takes hd ho
      refine ⟨fun h => ?_, fun h => ?_⟩
      · rw [exec_take hc hg hguard h he, State.deliver_event]
      · rw [exec_observe hc hg hguard h he, State.deliver_event]
    · exact exec_unowned hc hg hguard (State.ownerEvent_unconfigured _ _ hu)
    · rw [exec_unguarded hc hg hguard, State.dispose_drop h]
  case short =>
    intro s t check hc hg hguard discards
    have hdiscards : State.countDiscard = discards := funext State.countDiscard_eq
    clear_value discards
    subst hdiscards
    refine ⟨fun n hd ho hn => ?_, fun hnone => exec_unowned hc hg hguard (State.ownerEvent_none hnone _)⟩
    have he := State.ownerEvent_short hd ho hn
    refine ⟨fun h => ?_, fun h => ?_⟩
    · rw [exec_take hc hg hguard h he, State.deliver_short]
    · rw [exec_observe hc hg hguard h he, State.deliver_short]

/-! ## Telegrams to the part and broadcasts (R138, R165) -/

section
variable {s : State} {t : Telegram} {check : BitVec 16}

theorem exec_broadcast (hs : s.serving = true) (hg : goodTelegram t check) (hsource : lowSix t.source ≠ s.address)
    (hhop : lowSix t.hop ≠ 0) (hdest : lowSix t.dest = 63) :
    exec (.telegramReceived t check) s = .next (State.finish s (s.takeBroadcastTelegram t)) := by
  rw [exec_good hs hg, State.takeGood_broadcast hsource hhop (State.serving_address hs).2 hdest]

theorem State.takeBroadcastTelegram_calendar {rest : List Byte} (hkind : lowSix t.kind = 1)
    (hp : t.payload = 4 :: rest) : s.takeBroadcastTelegram t =
      ((s.forwards t).intakeJoin ⟨lowSix t.source, t.payload, true⟩).pumpAll := by
  rw [State.takeBroadcastTelegram, State.forwardJoin_eq, if_pos]
  exact ⟨hkind, by rw [hp]; rfl⟩

theorem State.takeBroadcastTelegram_other (h : lowSix t.kind ≠ 1 ∨ t.payload.head? ≠ some 4) :
    s.takeBroadcastTelegram t = s.forwards t := by
  rw [State.takeBroadcastTelegram, State.forwardJoin_eq, if_neg]
  rintro ⟨hkind, hnumber⟩
  refine h.elim (fun h => h hkind) fun h => h ?_
  match hp : t.payload, hnumber with
  | b :: _, hb => exact congrArg some (BitVec.eq_of_toNat_eq hb)

end

theorem State.intakeJoin_room {s : State} {e : IntakeEntry} (h : s.command.intake.length < 8) :
    s.intakeJoin e = { s with command := { s.command with intake := s.command.intake ++ [e] } } :=
  if_neg (Nat.not_le.2 h)

theorem State.intakeJoin_full {s : State} {e : IntakeEntry} (h : 8 ≤ s.command.intake.length) :
    s.intakeJoin e = ({ s with command := { s.command with
        intakeOverruns := min 65535 (s.command.intakeOverruns + 1) } } : State).notify
      (.commandOverrun e.source (commandNumber e.payload)) := by
  rw [State.intakeJoin, if_pos h, saturate_eq_min]

@[simp] theorem State.forwards_command (s : State) (t : Telegram) : (s.forwards t).command = s.command := by
  rw [← State.forwardJoin_eq, State.forwardJoin_command]

@[simp] theorem State.forwards_stock (s : State) (t : Telegram) : (s.forwards t).stock = s.stock := by
  unfold State.forwards; split <;> rfl

theorem takeCommand_broadcast (s : State) (src : Nat) (p : List Byte) :
    s.takeCommand ⟨src, p, true⟩ = s.takeBroadcast src p := rfl

theorem takeBroadcast_calendar (s : State) (src : Nat) (w y : Byte) (rest : List Byte) :
    s.takeBroadcast src (4 :: w :: y :: rest) =
      (if 1 ≤ w.toNat ∧ w.toNat ≤ 53 ∧ y.toNat ≤ 99 then
        { s with stock := { s.stock with calendar := ⟨w.toNat, y.toNat, y.toNat * 53 + (w.toNat - 1), true⟩ } }
      else s) := by
  show s.broadcastCalendar w.toNat y.toNat = _
  simp [State.broadcastCalendar, dateValid, State.withCalendar, ordinalOf, and_assoc]

theorem takeBroadcast_short (s : State) (src : Nat) {rest : List Byte} (h : rest.length < 2) :
    s.takeBroadcast src (4 :: rest) = s := by
  match rest, h with
  | [], _ | [_], _ => rfl

/-- With the FIFO empty a broadcast that joins it is taken in the same event. -/
theorem intakeJoin_pumpAll_broadcast {s : State} (h : s.command.intake = []) (src : Nat) (p : List Byte) :
    (s.intakeJoin ⟨src, p, true⟩).pumpAll = s.takeBroadcast src p := by
  have hjoin : s.intakeJoin ⟨src, p, true⟩ = { s with command := { s.command with intake := [⟨src, p, true⟩] } } := by
    simp [State.intakeJoin, h]
  have hleave : ({ s with command := { s.command with intake := [] } } : State) = s := by rw [← h]
  have hlast : (s.takeCommand ⟨src, p, true⟩).command.intake = [] := by
    have le := takeCommand_intakeLe s ⟨src, p, true⟩
    rw [h] at le
    exact List.length_eq_zero_iff.1 (Nat.le_zero.1 le)
  calc (s.intakeJoin ⟨src, p, true⟩).pumpAll
      = (s.takeCommand ⟨src, p, true⟩).pumpAll := by
        rw [hjoin, ((pumpAll_cases _).2 _ _ rfl).2 rfl]
        exact congrArg (fun u : State => (u.takeCommand ⟨src, p, true⟩).pumpAll) hleave
    _ = s.takeBroadcast src p := by rw [(pumpAll_cases _).1 hlast, takeCommand_broadcast]

/-- Settles O20. -/
theorem broadcastsAreForwarded : Obligations.BroadcastsAreForwarded := by
  refine ⟨fun s t check hs hg hsource hhop => ⟨fun hdest hkind => ?discarded, fun hdest h => ?forwarded,
      fun w y rest hdest hkind hp hempty => ?calendar⟩,
    fun s t check hs hg hsource hhop hdest hkind => ⟨fun rest hp hrest hempty => ?short,
      fun rest hp hroom => ?waits, fun rest hp hfull => ?lost⟩⟩
  case discarded =>
    rw [exec_good hs hg, State.takeGood_addressed hsource hhop hdest, State.takeAddressed, ← State.countDiscard_eq]
    exact congrArg (fun u : State => Host.Outcome.next (State.finish s u)) (if_neg hkind)
  case forwarded =>
    rw [exec_broadcast hs hg hsource hhop hdest, State.takeBroadcastTelegram_other h]
  case calendar =>
    rw [exec_broadcast hs hg hsource hhop hdest, State.takeBroadcastTelegram_calendar hkind hp,
      intakeJoin_pumpAll_broadcast (by simpa using hempty), hp, takeBroadcast_calendar,
      State.forwards_stock]
  case short =>
    rw [exec_broadcast hs hg hsource hhop hdest, State.takeBroadcastTelegram_calendar hkind hp,
      intakeJoin_pumpAll_broadcast (by simpa using hempty), hp, takeBroadcast_short _ _ hrest]
  case waits =>
    rw [exec_broadcast hs hg hsource hhop hdest, State.takeBroadcastTelegram_calendar hkind hp,
      State.intakeJoin_room (by simpa using hroom), State.forwards_command]
  case lost =>
    rw [exec_broadcast hs hg hsource hhop hdest, State.takeBroadcastTelegram_calendar hkind hp,
      State.intakeJoin_full (by simpa using hfull), State.forwards_command]
    dsimp only
    rw [hp]; rfl

end Sys2Proof.Machine

/-! # The family of the line: the receiver -/

namespace Sys2Proof.Machine

/-! ## Spoiled telegrams, expired hops and the unaddressed part (R136, R147, R148) -/

section
variable {s : State} {t : Telegram} {check : BitVec 16}

theorem exec_badCheck (hr : s.resetHeld = false) (hlen : t.payload.length ≤ 56) (h : t.checkWord ≠ check) :
    exec (.telegramReceived t check) s = .next (State.finish s s.countCheckError) := by
  rw [exec_telegramReceived, lineEvent_eq hr, State.receive, if_neg (Nat.not_lt.2 hlen), if_pos h]

theorem exec_hopExpired (hr : s.resetHeld = false) (hg : goodTelegram t check) (hhop : lowSix t.hop = 0)
    (hsource : s.serving = true → lowSix t.source ≠ s.address) :
    exec (.telegramReceived t check) s = .next (State.finish s s.countHopExpiry) := by
  rw [exec_telegramReceived, lineEvent_eq hr, State.receive_good hg]
  split
  case isTrue hs => rw [State.takeGood, if_neg (hsource hs), if_pos hhop]
  case isFalse => rw [State.repeatGood, if_pos hhop]

theorem exec_repeated (hr : s.resetHeld = false) (hs : s.serving = false) (hg : goodTelegram t check)
    (hhop : lowSix t.hop ≠ 0) :
    exec (.telegramReceived t check) s = .next (State.finish s (s.forwards t)) := by
  rw [exec_telegramReceived, lineEvent_eq hr, State.receive_good hg, hs, if_neg Bool.false_ne_true, State.repeatGood,
    if_neg hhop, State.forwardJoin_eq]

theorem State.serving_unaddressed (h : s.address = 0 ∨ s.address = 63) : s.serving = false := by
  obtain h | h := h <;> simp [State.serving, h]

end

/-! ## The symbol code (R176) -/

theorem Symbol.data_levels (b : Byte) : (Symbol.data b).levels = [false, b.getLsbD 0, b.getLsbD 1, b.getLsbD 2,
    b.getLsbD 3, b.getLsbD 4, b.getLsbD 5, b.getLsbD 6, b.getLsbD 7, true] := rfl

theorem Telegram.symbols_length (t : Telegram) : t.symbols.length = t.payload.length + 8 := by
  simp [Telegram.symbols, Telegram.wire, Telegram.checked]

theorem Symbol.flatMap_levels_length (xs : List Symbol) : (xs.flatMap Symbol.levels).length = xs.length * 10 := by
  induction xs with
  | nil => rfl
  | cons x xs ih => rw [List.flatMap_cons, List.length_append, Symbol.levels_length, ih, List.length_cons]; omega

theorem Telegram.duration_eq (t : Telegram) : t.duration = t.levels.length := by
  rw [Telegram.levels, Symbol.flatMap_levels_length, Telegram.symbols_length, Telegram.duration]

theorem State.ringOut_sending {s : State} {t : Telegram} (hr : s.resetHeld = false) (ht : s.ring.transmitter = some t)
    (n : Nat) : s.ringOut n = t.levels.getD n true := by
  simp only [State.ringOut, hr, ht]

theorem State.ringOut_idle {s : State} (h : s.resetHeld = true ∨ s.ring.transmitter = none) (n : Nat) :
    s.ringOut n = true := by
  unfold State.ringOut
  obtain h | h := h
  · rw [h]
  · rw [h]; cases s.resetHeld <;> rfl

/-! ## RING-IN, level by level (R176) -/

/-- Between symbols, ten levels that begin low are read as a symbol. -/
theorem State.feedLevels_ten {s : State} (hr : s.resetHeld = false) (h : s.ring.lineBits = []) {mid : List Bool}
    (hm : mid.length = 8) (last : Bool) :
    s.feedLevels (false :: mid ++ [last]) = s.feedRead (false :: mid ++ [last]) := by
  have hfirst : s.feedLevel false = s.setLineBits [false] := by simp [State.feedLevel, hr, h]
  have hmid := State.feedLevels_waits (s.setLineBits [false]) (by simpa using hr) [false] mid rfl (by simp)
    (by simp [hm])
  have hsplit : s.feedLevels (false :: mid ++ [last]) = ((s.feedLevel false).feedLevels mid).feedLevel last := by
    simp [State.feedLevels]
  rw [hsplit, hfirst, hmid, State.feedLevel, if_neg (by simp [hr]), if_neg (by simp), if_neg (by simp [hm])]
  show (s.setLineBits []).feedRead _ = _
  rw [State.setLineBits_same s h]
  rfl

theorem readSymbol_spoiled {mid : List Bool} (hm : mid.length = 8) (ht : true ∈ mid) :
    readSymbol (false :: mid ++ [false]) =
      (Config.spoiledSymbol (BitVec.ofNat 10 (levelsValue (false :: mid ++ [false])))).map .data := by
  have hall : ¬(false :: mid ++ [false]).all (fun b => !b) = true := by
    intro h
    have := List.all_eq_true.1 h true (by simp [ht])
    simp at this
  have hlast : ¬(false :: mid ++ [false]).getD 9 false = true := by
    simp [List.getD_eq_getElem?_getD, hm]
  rw [readSymbol, if_neg hall, if_neg hlast]

/-! ## RING-IN, symbol by symbol (R135) -/

theorem be2_num2 (hi lo : Byte) : be2 (BitVec.ofNat 16 (num2 hi lo)).toNat = [hi, lo] := by
  have h1 := hi.isLt
  have h2 := lo.isLt
  have hread : (BitVec.ofNat 16 (num2 hi lo)).toNat = hi.toNat * 256 + lo.toNat := by
    rw [BitVec.toNat_ofNat, num2]; omega
  rw [hread, be2]
  refine congrArg₂ (fun a b => [a, b]) (BitVec.eq_of_toNat_eq ?_) (BitVec.eq_of_toNat_eq ?_) <;>
    (rw [byteOf_toNat]; omega)

theorem byteOf_toNat_self (b : Byte) : byteOf b.toNat = b :=
  BitVec.eq_of_toNat_eq (by rw [byteOf_toNat]; exact Nat.mod_eq_of_lt b.isLt)

/-- The bytes since the marker are a telegram and a check word exactly when they are spelled so (R177). -/
theorem readTelegram_eq_some {bytes : List Byte} {t : Telegram} {check : BitVec 16} :
    readTelegram bytes = some (t, check) ↔ t.payload.length ≤ 255 ∧ bytes = t.checked ++ be2 check.toNat := by
  constructor
  · intro h
    unfold readTelegram at h
    split at h
    case h_2 => cases h
    case h_1 d src k hop l rest =>
    split at h
    case h_2 => cases h
    case h_1 hi lo hdrop =>
    cases h
    have hlen : (rest.take l.toNat).length = l.toNat := by
      have := congrArg List.length hdrop
      simp only [List.length_drop, List.length_cons, List.length_nil] at this
      rw [List.length_take]; omega
    have hl := l.isLt
    refine ⟨by rw [hlen]; omega, ?_⟩
    rw [Telegram.checked, hlen, byteOf_toNat_self, be2_num2, ← hdrop]
    simp
  · rintro ⟨hlen, rfl⟩
    have hread : (byteOf t.payload.length).toNat = t.payload.length := byteOf_length hlen (by omega)
    simp only [readTelegram, Telegram.checked, List.cons_append, hread, List.drop_left, be2, List.take_left]
    rw [bitVec16_read]

theorem readTelegram_eq_none {bytes : List Byte}
    (h : ∀ (t : Telegram) (check : BitVec 16), ¬(t.payload.length ≤ 255 ∧ bytes = t.checked ++ be2 check.toNat)) :
    readTelegram bytes = none := by
  cases hread : readTelegram bytes with
  | none => rfl
  | some x => exact absurd (readTelegram_eq_some.1 hread) (h x.1 x.2)

theorem declaresTooMuch_snoc (bytes : List Byte) (b : Byte) :
    declaresTooMuch (bytes ++ [b]) = true ↔ bytes.length = 4 ∧ 56 < b.toNat := by
  unfold declaresTooMuch
  by_cases h : bytes.length = 4
  · simp [h]
  · simp [h]

section
variable {s : State} {bytes : List Byte} {b : Byte}

theorem State.assemble_long (h : bytes.length = 4 ∧ 56 < b.toNat) :
    s.assemble (bytes ++ [b]) = (s.setReceiver .waiting).raise (.frameError .tooLong) :=
  if_pos ((declaresTooMuch_snoc bytes b).2 h)

theorem State.assemble_complete {t : Telegram} {check : BitVec 16} (hlen : t.payload.length ≤ 255)
    (h : bytes ++ [b] = t.checked ++ be2 check.toNat) :
    s.assemble (bytes ++ [b]) = (s.setReceiver .waiting).raise (.telegramReceived t check) := by
  have hlong : ¬declaresTooMuch (bytes ++ [b]) = true := by
    rw [declaresTooMuch_snoc]
    rintro ⟨h4, -⟩
    have := congrArg List.length h
    simp only [List.length_append, h4, Telegram.checked, be2_length, List.length_cons, List.length_nil] at this
    omega
  rw [State.assemble, if_neg hlong, readTelegram_eq_some.2 ⟨hlen, h⟩]

theorem State.assemble_more (hlong : ¬(bytes.length = 4 ∧ 56 < b.toNat))
    (h : ∀ (t : Telegram) (check : BitVec 16), ¬(t.payload.length ≤ 255 ∧ bytes ++ [b] = t.checked ++ be2 check.toNat)) :
    s.assemble (bytes ++ [b]) = s.setReceiver (.assembling (bytes ++ [b])) := by
  rw [State.assemble, if_neg (mt (declaresTooMuch_snoc bytes b).1 hlong), readTelegram_eq_none h]

theorem State.feedSymbol_held (h : s.resetHeld = true) (x : Symbol) : s.feedSymbol x = s := if_pos h

variable (hr : s.resetHeld = false)
include hr

theorem State.feedSymbol_waiting_marker (h : s.ring.receiver = .waiting) :
    s.feedSymbol .marker = s.setReceiver (.assembling []) := by
  simp only [State.feedSymbol, hr, h, Bool.false_eq_true, if_false]

theorem State.feedSymbol_waiting_data (h : s.ring.receiver = .waiting) (b : Byte) : s.feedSymbol (.data b) = s := by
  simp only [State.feedSymbol, hr, h, Bool.false_eq_true, if_false]

theorem State.feedSymbol_assembling_marker (h : s.ring.receiver = .assembling bytes) :
    s.feedSymbol .marker = (s.setReceiver (.assembling [])).raise (.frameError .cutShort) := by
  simp only [State.feedSymbol, hr, h, Bool.false_eq_true, if_false]

theorem State.feedSymbol_assembling_data (h : s.ring.receiver = .assembling bytes) (b : Byte) :
    s.feedSymbol (.data b) = s.assemble (bytes ++ [b]) := by
  simp only [State.feedSymbol, hr, h, Bool.false_eq_true, if_false]

end

/-- A telegram that begins with a telegram's bytes, in fewer of them, is not complete. -/
theorem Telegram.wire_prefix_incomplete {t : Telegram} (hlen : t.payload.length ≤ 56) {bytes rest : List Byte}
    (h : t.wire = bytes ++ rest) (hrest : rest ≠ []) (u : Telegram) (check : BitVec 16) :
    ¬(u.payload.length ≤ 255 ∧ bytes = u.checked ++ be2 check.toNat) := by
  rintro ⟨hu, rfl⟩
  have hsame : t.payload.length = u.payload.length := by
    have hfifth := congrArg (fun l : List Byte => (l[4]?).map BitVec.toNat) h
    simp only [Telegram.wire, Telegram.checked, List.cons_append, List.getElem?_cons_succ, List.getElem?_cons_zero,
      Option.map_some, Option.some.injEq] at hfifth
    rwa [byteOf_length hlen (by omega), byteOf_length hu (by omega)] at hfifth
  have htotal := congrArg List.length h
  simp only [Telegram.wire, Telegram.checked, List.length_append, List.length_cons, be2_length, hsame] at htotal
  exact hrest (List.length_eq_zero_iff.1 (by omega))

/-- The rest of a telegram's bytes, symbol by symbol, raises its reception. -/
theorem State.feedSymbols_rest {t : Telegram} (hlen : t.payload.length ≤ 56) : ∀ (rest bytes : List Byte) (s : State),
    t.wire = bytes ++ rest → rest ≠ [] → s.resetHeld = false → s.ring.receiver = .assembling bytes →
    (rest.map Symbol.data).foldl State.feedSymbol s =
      (s.setReceiver .waiting).raise (.telegramReceived t t.checkWord)
  | [], _, _, _, hne, _, _ => absurd rfl hne
  | [b], bytes, s, h, _, hr, hs => by
    show s.feedSymbol (.data b) = _
    rw [State.feedSymbol_assembling_data hr hs, State.assemble_complete (hlen.trans (by decide)) h.symm]
  | b :: c :: rest, bytes, s, h, _, hr, hs => by
    have hshift : t.wire = (bytes ++ [b]) ++ c :: rest := by rw [h, List.append_assoc]; rfl
    have hlong : ¬(bytes.length = 4 ∧ 56 < b.toNat) := by
      rintro ⟨h4, hb⟩
      have hfifth := congrArg (fun l : List Byte => l[4]?) h
      rw [← h4] at hfifth
      simp only [List.getElem?_append_right (Nat.le_refl _), Nat.sub_self, List.getElem?_cons_zero] at hfifth
      rw [h4] at hfifth
      simp only [Telegram.wire, Telegram.checked, List.cons_append, List.getElem?_cons_succ, List.getElem?_cons_zero,
        Option.some.injEq] at hfifth
      rw [← hfifth, byteOf_length hlen (by omega)] at hb
      omega
    have hstep : s.feedSymbol (.data b) = s.setReceiver (.assembling (bytes ++ [b])) := by
      rw [State.feedSymbol_assembling_data hr hs,
        State.assemble_more hlong (Telegram.wire_prefix_incomplete hlen hshift (List.cons_ne_nil _ _))]
    show ((c :: rest).map Symbol.data).foldl State.feedSymbol (s.feedSymbol (.data b)) = _
    rw [hstep, State.feedSymbols_rest hlen (c :: rest) (bytes ++ [b]) _ hshift (List.cons_ne_nil _ _) (by simpa using hr) rfl]
    rfl

theorem State.feedSymbols_telegram {s : State} {t : Telegram} (hr : s.resetHeld = false)
    (hs : s.ring.receiver = .waiting) (hlen : t.payload.length ≤ 56) :
    t.symbols.foldl State.feedSymbol s = (s.setReceiver .waiting).raise (.telegramReceived t t.checkWord) := by
  show (t.wire.map Symbol.data).foldl State.feedSymbol (s.feedSymbol .marker) = _
  rw [State.feedSymbol_waiting_marker hr hs, State.feedSymbols_rest hlen t.wire [] _ rfl (List.cons_ne_nil _ _)
    (by simpa using hr) rfl]
  rfl

/-- Settles O16: counted telegrams, the unaddressed part, the symbol code, the levels, and the symbols. -/
theorem spoiledTelegramsAreCountedAndUnaddressedPartRepeats :
    Obligations.SpoiledTelegramsAreCountedAndUnaddressedPartRepeats := by
  refine ⟨⟨fun s hr => ⟨fun cause => ?frame, fun t check hlen h => ?check⟩,
    ⟨fun s t check hr hg hhop hsource => ?hop, fun s hr ha => ⟨fun t check hg hhop => ?repeated, fun c hc => ?deaf⟩⟩⟩,
    ⟨⟨Symbol.data_levels, rfl, fun t => ⟨rfl, Telegram.symbols_length t, rfl, Telegram.duration_eq t⟩,
        fun s n => ⟨fun t hr ht => State.ringOut_sending hr ht n, fun h => State.ringOut_idle h n⟩⟩,
      fun s h => ⟨fun x => s.feedLevels_symbol x h, s.feedLevel_idle h, fun mid hr hm ht => ?spoiled⟩, ?symbols⟩⟩
  case frame => rw [exec_frameError, lineEvent_eq hr, State.countFrameError_eq]
  case check => rw [exec_badCheck hr hlen h, State.countCheckError_eq]
  case hop => rw [exec_hopExpired hr hg hhop hsource, State.countHopExpiry_eq]
  case repeated => exact exec_repeated hr (State.serving_unaddressed ha) hg hhop
  case deaf => exact exec_notServing (State.serving_unaddressed ha) hc
  case spoiled =>
    rw [State.feedLevels_ten hr h hm, State.feedRead, readSymbol_spoiled hm ht]
    cases Config.spoiledSymbol (BitVec.ofNat 10 (levelsValue (false :: mid ++ [false]))) <;> rfl
  case symbols =>
    intro s at_ raised
    refine ⟨State.feedSymbol_held, fun hr => ⟨fun hw => ⟨State.feedSymbol_waiting_marker hr hw,
      State.feedSymbol_waiting_data hr hw⟩, fun bytes hs => ?_, fun t hw hlen => State.feedSymbols_telegram hr hw hlen⟩⟩
    refine ⟨State.feedSymbol_assembling_marker hr hs, fun b hlong => ?_, fun b t check hcomplete => ?_,
      fun b hlong hcomplete => ?_⟩
    · rw [State.feedSymbol_assembling_data hr hs, State.assemble_long hlong]; rfl
    · rw [State.feedSymbol_assembling_data hr hs, State.assemble_complete hcomplete.1 hcomplete.2]; rfl
    · rw [State.feedSymbol_assembling_data hr hs, State.assemble_more hlong hcomplete]; rfl

end Sys2Proof.Machine

/-! # The family of the line: the intake and the arbiter -/

namespace Sys2Proof.Machine

/-! ## What a notice leaves alone -/

@[simp] theorem State.notify_intake (s : State) (n : Notice) : (s.notify n).command.intake = s.command.intake := by
  unfold State.notify; (repeat' split) <;> rfl

@[simp] theorem State.notify_replies (s : State) (n : Notice) : (s.notify n).ring.replies = s.ring.replies := by
  unfold State.notify; (repeat' split) <;> rfl

/-! ## Commands that wait (R163) -/

theorem pumpAll_blocked {s : State} (hr : 4 ≤ s.ring.replies.length)
    (h : ∀ e rest, s.command.intake = e :: rest → e.broadcast = false) : s.pumpAll = s := by
  cases he : s.command.intake with
  | nil => exact (pumpAll_cases s).1 he
  | cons e rest =>
    refine ((pumpAll_cases s).2 e rest he).1 ?_
    rw [State.mayTake, h e rest he, Bool.false_or, decide_eq_false_iff_not]
    omega

theorem commandNumber_eq (p : List Byte) : commandNumber p = (p.head?.map BitVec.toNat).getD 0 := by cases p <;> rfl

theorem pumpAll_joined_blocked {s : State} (hr : s.ring.replies.length = 4)
    (h : ∀ e rest, s.command.intake = e :: rest → e.broadcast = false) (src : Nat) (p : List Byte) :
    (s.intakeJoin ⟨src, p, false⟩).pumpAll = s.intakeJoin ⟨src, p, false⟩ := by
  by_cases hroom : s.command.intake.length < 8
  · rw [State.intakeJoin_room hroom]
    refine pumpAll_blocked (Nat.le_of_eq hr.symm) fun e rest he => ?_
    cases hq : s.command.intake with
    | nil => simp only [hq, List.nil_append, List.cons.injEq] at he; rw [← he.1]
    | cons f more =>
      simp only [hq, List.cons_append, List.cons.injEq] at he
      rw [← he.1]; exact h f more hq
  · rw [State.intakeJoin_full (Nat.not_lt.1 hroom)]
    exact pumpAll_blocked (by simp [hr]) fun e rest he => h e rest (by simpa using he)

/-! ## Payloads that spell no command (R164) -/

theorem spellsNone_cons (src : Nat) (n : Byte) (p : List Byte) :
    spellsNone src (n :: p) = (parseArguments src n.toNat p).isNone := by
  simp only [spellsNone, parseCommand]
  cases parseArguments src n.toNat p <;> rfl

theorem parseArguments_noNumber (src : Nat) (p : List Byte) : ∀ n : Nat, n = 0 ∨ 32 < n → parseArguments src n p = none
  | 0, _ => rfl
  | _ + 33, _ => rfl

/-- The commands of a fixed layout, each with the bytes its layout needs (10, Commands). -/
def fixedLayouts : List (Nat × Nat) :=
  [(1, 0), (2, 7), (3, 0), (4, 2), (5, 7), (6, 7), (8, 9), (9, 1), (10, 1), (11, 1), (12, 1), (13, 1), (14, 3),
    (15, 7), (16, 2), (19, 0), (20, 2), (21, 1), (22, 4), (23, 0), (25, 2), (26, 3), (27, 3), (28, 2), (29, 1),
    (30, 6), (31, 0), (32, 0)]

/-- A payload of nine bytes spells each command of a fixed layout: none reads beyond its ninth byte. -/
theorem parseArguments_nine (src : Nat) (a b c d e f g h i : Byte) (rest : List Byte) : ∀ x ∈ fixedLayouts,
    x.2 ≤ 9 ∧ (parseArguments src x.1 (a :: b :: c :: d :: e :: f :: g :: h :: i :: rest)).isNone = false := by
  intro x hx
  fin_cases hx <;> exact ⟨by decide, rfl⟩

theorem parseArguments_fixed (src : Nat) (p : List Byte) : ∀ x ∈ fixedLayouts,
    (parseArguments src x.1 p).isNone = decide (p.length < x.2) := by
  match p with
  | _ :: _ :: _ :: _ :: _ :: _ :: _ :: _ :: _ :: rest =>
    intro x hx
    obtain ⟨hnine, hread⟩ := parseArguments_nine src _ _ _ _ _ _ _ _ _ rest x hx
    rw [hread, eq_comm, decide_eq_false_iff_not]
    simp only [List.length_cons]; omega
  | [] | [_] | [_, _] | [_, _, _] | [_, _, _, _] | [_, _, _, _, _] | [_, _, _, _, _, _] | [_, _, _, _, _, _, _]
  | [_, _, _, _, _, _, _, _] =>
    simp only [fixedLayouts, List.forall_mem_cons]
    refine ⟨rfl, rfl, rfl, rfl, rfl, rfl, rfl, rfl, rfl, rfl, rfl, rfl, rfl, rfl, rfl, rfl, rfl, rfl, rfl, rfl, rfl, rfl,
      rfl, rfl, rfl, rfl, rfl, rfl, ?_⟩
    exact fun _ hx => absurd hx List.not_mem_nil

theorem parseBytes_isNone : ∀ (n : Nat) (p : List Byte), (parseBytes n p).isNone = decide (p.length < n)
  | 0, p => by simp [parseBytes]
  | n + 1, [] => by simp [parseBytes]
  | n + 1, b :: p => by simp [parseBytes, Option.isNone_map, parseBytes_isNone n p]

theorem parseSlotArgs_isNone : ∀ (n : Nat) (p : List Byte), (parseSlotArgs n p).isNone = decide (p.length < 12 * n)
  | 0, p => by simp [parseSlotArgs]
  | n + 1, _ :: _ :: _ :: _ :: _ :: _ :: _ :: _ :: _ :: _ :: _ :: _ :: p => by
    rw [parseSlotArgs, Option.isNone_map, parseSlotArgs_isNone n p]
    simp only [List.length_cons, decide_eq_decide]; omega
  | n + 1, [] | n + 1, [_] | n + 1, [_, _] | n + 1, [_, _, _] | n + 1, [_, _, _, _] | n + 1, [_, _, _, _, _]
  | n + 1, [_, _, _, _, _, _] | n + 1, [_, _, _, _, _, _, _] | n + 1, [_, _, _, _, _, _, _, _]
  | n + 1, [_, _, _, _, _, _, _, _, _] | n + 1, [_, _, _, _, _, _, _, _, _, _]
  | n + 1, [_, _, _, _, _, _, _, _, _, _, _] => by
    simp only [parseSlotArgs, Option.isNone_none, List.length_cons, List.length_nil]
    exact (decide_eq_true (by omega)).symm

theorem parseLineArgs_isNone : ∀ (n : Nat) (p : List Byte), (parseLineArgs n p).isNone = decide (p.length < 5 * n)
  | 0, p => by simp [parseLineArgs]
  | n + 1, _ :: _ :: _ :: _ :: _ :: p => by
    rw [parseLineArgs, Option.isNone_map, parseLineArgs_isNone n p]
    simp only [List.length_cons, decide_eq_decide]; omega
  | n + 1, [] | n + 1, [_] | n + 1, [_, _] | n + 1, [_, _, _] | n + 1, [_, _, _, _] => by
    simp only [parseLineArgs, Option.isNone_none, List.length_cons, List.length_nil]
    exact (decide_eq_true (by omega)).symm

section
variable (src : Nat) {n : Byte}

theorem spellsNone_fixed (p : List Byte) {x : Nat × Nat} (hx : x ∈ fixedLayouts) (hn : n.toNat = x.1) :
    spellsNone src (n :: p) = true ↔ p.length < x.2 := by
  rw [spellsNone_cons, hn, parseArguments_fixed src p x hx, decide_eq_true_eq]

theorem spellsNone_zoneMap_short (hn : n.toNat = 7) {p : List Byte} (h : p.length < 3) :
    spellsNone src (n :: p) = true := by
  rw [spellsNone_cons, hn]
  match p, h with
  | [], _ | [_], _ | [_, _], _ => rfl

theorem spellsNone_zoneMap (hn : n.toNat = 7) (k f z : Byte) (rest : List Byte) :
    spellsNone src (n :: k :: f :: z :: rest) = true ↔ rest.length < z.toNat := by
  rw [spellsNone_cons, hn]
  simp only [parseArguments, Option.isNone_map, parseBytes_isNone, decide_eq_true_eq]

theorem spellsNone_loadSlots (hn : n.toNat = 17) (r : Byte) (rest : List Byte) :
    spellsNone src (n :: r :: rest) = true ↔ rest.length < 12 * r.toNat := by
  rw [spellsNone_cons, hn]
  simp only [parseArguments, Option.isNone_map, parseSlotArgs_isNone, decide_eq_true_eq]

theorem spellsNone_holdRelease_short (hn : n.toNat = 18) {p : List Byte} (h : p.length < 12) :
    spellsNone src (n :: p) = true := by
  rw [spellsNone_cons, hn]
  match p, h with
  | [], _ | [_], _ | [_, _], _ | [_, _, _], _ | [_, _, _, _], _ | [_, _, _, _, _], _ | [_, _, _, _, _, _], _
  | [_, _, _, _, _, _, _], _ | [_, _, _, _, _, _, _, _], _ | [_, _, _, _, _, _, _, _, _], _
  | [_, _, _, _, _, _, _, _, _, _], _ | [_, _, _, _, _, _, _, _, _, _, _], _ => rfl

theorem spellsNone_holdRelease (hn : n.toNat = 18) (a b f : Byte) {rest : List Byte} (h : 9 ≤ rest.length) :
    spellsNone src (n :: a :: b :: f :: rest) = true ↔ 2 < f.toNat := by
  rw [spellsNone_cons, hn]
  match rest, h with
  | _ :: _ :: _ :: _ :: _ :: _ :: _ :: _ :: _ :: _, _ =>
    simp only [parseArguments]
    generalize f.toNat = form
    match form with
    | 0 | 1 | 2 => simp
    | form + 3 => simp

theorem spellsNone_order_short (hn : n.toNat = 24) {p : List Byte} (h : p.length < 9) :
    spellsNone src (n :: p) = true := by
  rw [spellsNone_cons, hn]
  match p, h with
  | [], _ | [_], _ | [_, _], _ | [_, _, _], _ | [_, _, _, _], _ | [_, _, _, _, _], _ | [_, _, _, _, _, _], _
  | [_, _, _, _, _, _, _], _ | [_, _, _, _, _, _, _, _], _ => rfl

theorem spellsNone_order (hn : n.toNat = 24) {first : List Byte} (h : first.length = 8) (l : Byte) (rest : List Byte) :
    spellsNone src (n :: (first ++ l :: rest)) = true ↔ rest.length < 5 * l.toNat := by
  rw [spellsNone_cons, hn]
  match first, h with
  | [_, _, _, _, _, _, _, _], _ =>
    simp only [List.cons_append, List.nil_append, parseArguments, Option.isNone_map, parseLineArgs_isNone,
      decide_eq_true_eq]

end

/-- Settles O21: a command that waits or is lost, the Command Unit's refusals, and the payloads that spell none. -/
theorem commandsWaitOrAreRefused : Obligations.CommandsWaitOrAreRefused := by
  refine ⟨fun s t check hs hg hsource hhop hdest hkind hr hhead => ?arrives,
    fun s src p hs hp => ?spelled, fun s src hs hsrc => ⟨?ops, ?all⟩, fun src n rest => ⟨rfl, fun h => ?number⟩,
    fun src n p => ⟨fun x hx hn => spellsNone_fixed src p hx hn, fun hn => ⟨spellsNone_zoneMap_short src hn, ?zones⟩,
      fun hn => ⟨?noCount, ?slots⟩, fun hn => ⟨spellsNone_holdRelease_short src hn, ?form⟩,
      fun hn => ⟨spellsNone_order_short src hn, ?lines⟩⟩, fun s dest number st data => rfl⟩
  case arrives =>
    have htaken := exec_commandTelegram hs hg hsource hhop hdest hkind
    rw [pumpAll_joined_blocked hr hhead] at htaken
    refine ⟨fun hroom => ?_, fun hfull => ?_⟩
    · rw [htaken, State.intakeJoin_room hroom]
    · rw [htaken, State.intakeJoin_full (Nat.le_of_eq hfull.symm), commandNumber_eq]
  case spelled =>
    obtain ⟨hserving, hempty, hreplies⟩ := hs
    rw [exec_badCommandNumber, served_eq hserving, State.issue, hempty, payloadAnswer_of_spellsNone hp,
      commandNumber_eq]
    simp [State.mayTake, hreplies, State.refuse, Answer.placed]
  case ops =>
    rw [exec_restartOps]
    exact command_of_answer hs (if_neg hsrc)
  case all =>
    rw [exec_restartAll]
    exact command_of_answer hs (if_neg hsrc)
  case number => rw [spellsNone_cons, parseArguments_noNumber src rest n.toNat h]; rfl
  case zones => rintro k f z rest rfl; exact spellsNone_zoneMap src hn k f z rest
  case noCount => rintro rfl; rw [spellsNone_cons, hn]; rfl
  case slots => rintro r rest rfl; exact spellsNone_loadSlots src hn r rest
  case form =>
    rintro a b f rest rfl hlen
    exact spellsNone_holdRelease src hn a b f (by simpa using hlen)
  case lines => rintro first l rest rfl hfirst; exact spellsNone_order src hn hfirst l rest

/-! ## The end of a transmission (R145) -/

section
variable {s : State} {sent : Telegram} (hr : s.resetHeld = false) (ht : s.ring.transmitter = some sent)
include hr ht

/-- The part with its transmitter idle again. -/
theorem exec_transmissionComplete_of {t : State}
    (h : ({ s with ring := { s.ring with transmitter := none } } : State).arbitrate = t) :
    exec .transmissionComplete s = .next (State.finish s t.pumpAll) := by
  rw [exec_transmissionComplete, lineEvent_eq hr, State.endTransmission, ht]
  dsimp only
  rw [h]

end

theorem State.queueEmpty_idle (s : State) (x : Source) :
    ({ s with ring := { s.ring with transmitter := none } } : State).queueEmpty x ↔ s.queueEmpty x := by
  cases x <;> rfl

theorem takeBroadcast_spellsNone {src : Nat} {p : List Byte} (h : spellsNone src p = true) (s : State) :
    s.takeBroadcast src p = s := by
  unfold spellsNone at h
  unfold State.takeBroadcast
  cases hp : parseCommand src p with
  | command c => simp [hp] at h
  | bad n => rfl

theorem head_commandPayload {c : Instr} {src : Nat} (hs : c.commandSource = some src)
    (hb : ∀ p, c ≠ .badCommandNumber src p) :
    (commandPayload c).head?.map BitVec.toNat = some (commandNumber (commandPayload c)) := by
  cases h : commandPayload c with
  | nil => exact absurd h (commandPayload_ne_nil hs hb)
  | cons b p => rfl

theorem takeCommand_spelled {c : Instr} {src : Nat} (hw : c.wellFormed = true) (hs : c.commandSource = some src)
    (hb : ∀ p, c ≠ .badCommandNumber src p) (s : State) :
    s.takeCommand ⟨src, commandPayload c, false⟩ = (answerTo c s).placed src (commandNumber (commandPayload c)) := by
  show (payloadAnswer src (commandPayload c) s).placed src _ = _
  rw [payloadAnswer_of_command (parseCommand_spelled hw hs hb)]

/-- Settles O22: the arbiter's choice, the commands then taken, and the part's own telegrams. -/
theorem arbiterChoosesFromThePointer : Obligations.ArbiterChoosesFromThePointer := by
  refine ⟨⟨fun s sent hr ht => ⟨fun hempty => ?silent, fun x before after hp hb => ?sends⟩,
    fun s => ⟨(pumpAll_cases s).1, fun e rest he => ⟨?waits, ?taken⟩⟩,
    fun c src s hw hs hb => ⟨commandNumber (commandPayload c), takeCommand_spelled hw hs hb s,
      head_commandPayload hs hb, fun hacc => ?row⟩,
    fun s src p hp => ?refused, fun s src w y rest => takeBroadcast_calendar s src w y rest,
    fun s src p hp => takeBroadcast_spellsNone hp s⟩,
    fun _ _ _ _ => rfl, rfl, rfl, fun _ _ _ _ => rfl, fun _ => rfl, fun _ => rfl⟩
  case silent =>
    exact exec_transmissionComplete_of hr ht
      (State.arbitrate_empty rfl fun x => (State.queueEmpty_idle s x).2 (hempty x))
  case sends =>
    have hbefore := fun y hy => (State.queueEmpty_idle s y).2 (hb y hy)
    refine ⟨fun t rest hx hq => ?_, fun e rest hx hq => ?_, fun a rest hx hq => ?_, fun q rest hx hq => ?_⟩ <;>
      subst hx <;> refine exec_transmissionComplete_of hr ht (State.arbitrate_sends rfl hp hbefore ?_)
    · exact State.sendFrom_forward hq
    · exact State.sendFrom_field hq
    · exact State.sendFrom_reply hq
    · exact State.sendFrom_notice hq
  case waits =>
    rintro ⟨hb, hfull⟩
    refine ((pumpAll_cases s).2 e rest he).1 ?_
    rw [State.mayTake, hb, Bool.false_or, decide_eq_false_iff_not]
    exact Nat.not_lt.2 hfull
  case taken =>
    intro h
    refine ((pumpAll_cases s).2 e rest he).2 ?_
    rw [State.mayTake, Bool.or_eq_true, decide_eq_true_eq]
    exact h
  case row => rw [exec_command hs hb, command_eq hacc]
  case refused =>
    show (payloadAnswer src p s).placed src _ = _
    rw [payloadAnswer_of_spellsNone hp, commandNumber_eq]
    rfl

end Sys2Proof.Machine

/-! # The family of the whole part: reading commands, the audit's settings, calendar and enables -/

namespace Sys2Proof.Machine

/-! ## The slot table as a list (R1, R6, R7) -/

theorem sparseRising_pairwise {α : Type} {m : Sparse α} (h : sparseRising m = true) :
    m.Pairwise (fun a b => a.1 < b.1) := by
  induction m with
  | nil => exact .nil
  | cons e m ih =>
    obtain ⟨hlow, hrest⟩ := sparseRising_cons.1 h
    exact List.pairwise_cons.2 ⟨hlow, ih hrest⟩

theorem TablesOk.slotsRising {s : State} (h : TablesOk s) : sparseRising s.stock.slots = true :=
  (Bool.and_eq_true_iff.1 h.slots).1

section
variable {s : State} {i : Nat} {x : Slot}

theorem State.slot_of_mem (hr : sparseRising s.stock.slots = true) (h : (i, x) ∈ s.stock.slots) : s.slot i = x := by
  simp only [State.slot, sparseGet, sparseFind_of_mem hr h, Option.getD_some]

theorem State.mem_of_slot (h : s.slot i ≠ {}) : (i, s.slot i) ∈ s.stock.slots := by
  unfold State.slot sparseGet at h ⊢
  cases hf : sparseFind i s.stock.slots with
  | none => simp [hf] at h
  | some y => exact sparseFind_mem hf

/-- What the listed slots show is what all slots show, where an empty slot shows nothing. -/
theorem State.mem_filterMap_slots {α : Type} (hr : sparseRising s.stock.slots = true) {f : Slot → Option α}
    (hf : f {} = none) (y : α) :
    y ∈ s.stock.slots.filterMap (fun e => f e.2) ↔ ∃ i, f (s.slot i) = some y := by
  rw [List.mem_filterMap]
  constructor
  · rintro ⟨⟨i, x⟩, hm, hx⟩
    exact ⟨i, by rw [State.slot_of_mem hr hm]; exact hx⟩
  · rintro ⟨i, hi⟩
    refine ⟨(i, s.slot i), State.mem_of_slot ?_, hi⟩
    intro he
    rw [he, hf] at hi
    cases hi

end

/-! ## Distinct members -/

section
variable {α : Type} [BEq α] [LawfulBEq α]

/-- One step of `distinct` and of `oncePairs`. -/
def keepNew {α : Type} [BEq α] (acc : List α) (x : α) : List α := if acc.contains x then acc else acc ++ [x]

theorem mem_keepNew {acc : List α} {x y : α} : y ∈ keepNew acc x ↔ y ∈ acc ∨ y = x := by
  unfold keepNew
  split
  · rename_i h
    have hx : x ∈ acc := by simpa using h
    exact ⟨.inl, fun h => h.elim id fun e => e ▸ hx⟩
  · simp

theorem keepNew_nodup {acc : List α} {x : α} (h : acc.Nodup) : (keepNew acc x).Nodup := by
  unfold keepNew
  split
  · exact h
  · rename_i hx
    have hx : x ∉ acc := by simpa using hx
    rw [List.nodup_append]
    exact ⟨h, by simp, fun a ha b hb hab => hx (by rw [List.mem_singleton.1 hb] at hab; exact hab ▸ ha)⟩

omit [LawfulBEq α] in
theorem keepNew_sublist (acc : List α) (x : α) : (keepNew acc x).Sublist (acc ++ [x]) := by
  unfold keepNew
  split
  · exact List.sublist_append_left acc [x]
  · exact List.Sublist.refl _

/-- Keeping what is new leaves each member once, all of them, and each at its first place. -/
theorem foldl_keepNew (xs acc : List α) (h : acc.Nodup) :
    (xs.foldl keepNew acc).Nodup ∧ (∀ y, y ∈ xs.foldl keepNew acc ↔ y ∈ acc ∨ y ∈ xs)
      ∧ (xs.foldl keepNew acc).Sublist (acc ++ xs) := by
  induction xs generalizing acc with
  | nil => exact ⟨h, fun y => by simp, by simp⟩
  | cons x xs ih =>
    obtain ⟨hn, hm, hs⟩ := ih _ (keepNew_nodup (x := x) h)
    refine ⟨hn, fun y => ?_, ?_⟩
    · rw [List.foldl_cons, hm y, mem_keepNew, List.mem_cons, or_assoc]
    · have hstep := (keepNew_sublist acc x).append (List.Sublist.refl xs)
      rw [List.append_assoc] at hstep
      exact hs.trans hstep

end

theorem distinct_nodup (xs : List Nat) : (distinct xs).Nodup := (foldl_keepNew xs [] List.nodup_nil).1

theorem mem_distinct {xs : List Nat} {y : Nat} : y ∈ distinct xs ↔ y ∈ xs := by
  have h := (foldl_keepNew xs [] List.nodup_nil).2.1 y
  rwa [or_iff_right (List.not_mem_nil)] at h

theorem length_eq_of_mem_iff {xs ys : List Nat} (hx : xs.Nodup) (hy : ys.Nodup) (h : ∀ z, z ∈ xs ↔ z ∈ ys) :
    xs.length = ys.length := ((List.perm_ext_iff_of_nodup hx hy).2 h).length_eq

/-! ## The STOCK record's counts -/

section
variable {s : State} (hr : sparseRising s.stock.slots = true)
include hr

theorem State.mem_stockKeys (a : Nat) :
    a ∈ s.stockKeys ↔ ∃ i g, (s.slot i).content.listed = some g ∧ g.article = a := by
  rw [State.stockKeys, mem_distinct,
    State.mem_filterMap_slots hr (f := fun x => x.content.listed.map Goods.article) rfl]
  simp only [Option.map_eq_some_iff]

theorem State.mem_demandArticles (a : Nat) :
    a ∈ s.demandArticles ↔ ∃ i g, (s.slot i).content.goods = some g ∧ g.article = a := by
  rw [State.demandArticles, mem_distinct,
    State.mem_filterMap_slots hr (f := fun x => x.content.goods.map Goods.article) rfl]
  simp only [Option.map_eq_some_iff]

theorem State.tagCount_eq {tagged : List Nat} (hn : tagged.Nodup)
    (h : ∀ i, i ∈ tagged ↔ (s.slot i).content.tag ≠ none) : s.tagCount = tagged.length := by
  rw [State.tagCount, ← List.length_map (f := Prod.fst)]
  refine length_eq_of_mem_iff ?_ hn fun i => ?_
  · have hrising := (sparseRising_pairwise hr).sublist
      (List.filter_sublist (p := fun e : Nat × Slot => e.2.content.tag.isSome))
    exact List.pairwise_map.2 (hrising.imp fun h => Nat.ne_of_lt h)
  · rw [h i, List.mem_map]
    constructor
    · rintro ⟨⟨j, x⟩, hm, rfl⟩
      obtain ⟨hm, ht⟩ := List.mem_filter.1 hm
      rw [State.slot_of_mem hr hm]
      simpa [Option.isSome_iff_ne_none] using ht
    · intro ht
      refine ⟨(i, s.slot i), List.mem_filter.2 ⟨State.mem_of_slot ?_, ?_⟩, rfl⟩
      · intro he; exact ht (by rw [he]; rfl)
      · simpa [Option.isSome_iff_ne_none] using ht

end

/-! ## QUERY (R167, R168) -/

section
variable {s : State} (hs : s.accepts) {src kind a b : Nat}
include hs

theorem exec_query_ok {data : List Byte} (h : s.queryRecord a b kind = .ok data) :
    exec (.query src kind a b) s = .next (State.finish s (s.placeReply src 2 .done data)) := by
  have hanswer : answerTo (.query src kind a b) s = ⟨s, .done, data⟩ := by
    show queryAnswer kind a b s = _
    simp only [queryAnswer, h]
  rw [exec_query]
  exact command_of_answer hs hanswer

theorem exec_query_error {st : Status} (h : s.queryRecord a b kind = .error st) :
    exec (.query src kind a b) s = .next (State.finish s (s.placeReply src 2 st [])) := by
  have hanswer : answerTo (.query src kind a b) s = ⟨s, st, []⟩ := by
    show queryAnswer kind a b s = _
    simp only [queryAnswer, h]; rfl
  rw [exec_query]
  exact command_of_answer hs hanswer

end

section
variable {s : State} {a b : Nat}

/-- A query's refusal is one of two. -/
def queryRefusal (r : Except Status (List Byte)) : Prop :=
  ∀ st, r = .error st → st = .badArgument ∨ st = .noSuchRecord

theorem inRange_refusal (ok : Bool) {r : Except Status (List Byte)} (h : queryRefusal r) :
    queryRefusal (inRange ok r) := by
  intro st hst
  cases ok with
  | true => exact h st hst
  | false => cases hst; exact .inl rfl

theorem found_refusal (data : List Byte) : queryRefusal (found data) := fun _ h => nomatch h

theorem foundOr_refusal {α : Type} (o : Option α) (f : α → List Byte) : queryRefusal (foundOr o f) := by
  intro st hst
  cases o with
  | some x => cases hst
  | none => cases hst; exact .inr rfl

theorem tableReply_refusal (s : State) (a b : Nat) : queryRefusal (s.tableReply a b) := by
  intro st hst
  unfold State.tableReply at hst
  split at hst
  · cases hst
  · cases hst; exact .inl rfl

theorem queryRecord_refusal (s : State) (a b : Nat) : ∀ kind, queryRefusal (s.queryRecord a b kind)
  | 0 | 5 | 6 | 7 | 9 | 12 | 15 | 16 => inRange_refusal _ (found_refusal _)
  | 1 | 3 | 11 => foundOr_refusal _ _
  | 2 | 4 | 10 | 13 | 14 | 17 | 19 => found_refusal _
  | 8 => inRange_refusal _ (foundOr_refusal _ _)
  | 18 => tableReply_refusal s a b
  | _ + 20 => fun _ h => by cases h; exact .inl rfl

theorem inRange_false {ok : Bool} (h : ok = false) (r : Except Status (List Byte)) :
    inRange ok r = .error .badArgument := by rw [h]; rfl

theorem inRange_true {ok : Bool} (h : ok = true) (r : Except Status (List Byte)) : inRange ok r = r := by rw [h]; rfl

theorem bankOf?_none {n : Nat} (h : 1 < n) : bankOf? n = none := by
  match n, h with
  | _ + 2, _ => rfl

theorem tableOf?_none {n : Nat} (h : 2 < n) : tableOf? n = none := by
  match n, h with
  | _ + 3, _ => rfl

theorem tableReply_bad (h : 1 < a / 256 % 256 ∨ 2 < a % 256) : s.tableReply a b = .error .badArgument := by
  unfold State.tableReply
  obtain h | h := h
  · rw [bankOf?_none h]
  · rw [tableOf?_none h]; cases bankOf? (a / 256 % 256) <;> rfl

theorem bankOf?_code (bank : BankName) : bankOf? bank.code = some bank := by cases bank <;> rfl

theorem queryRecord_table {bank : BankName} {t : TableName} (hb : a / 256 % 256 = bank.code)
    (ht : tableOf? (a % 256) = some t) : s.queryRecord a b 18 = .ok ((s.policy.bank bank).stretch b t) := by
  simp only [State.queryRecord, State.tableReply, hb, bankOf?_code, ht]

theorem queryRecord_bad {kind : Nat} (h : 20 ≤ kind ∨ (kind = 0 ∧ 6143 < a) ∨ (kind ∈ [5, 6, 7, 8, 9, 15, 16] ∧ 7 < a)
    ∨ (kind ∈ [6, 8, 16] ∧ (s.carousel a).carriers ≤ b) ∨ (kind = 12 ∧ 23 < a)
    ∨ (kind = 18 ∧ (1 < a / 256 % 256 ∨ 2 < a % 256))) : s.queryRecord a b kind = .error .badArgument := by
  obtain h | ⟨rfl, h⟩ | ⟨hk, h⟩ | ⟨hk, h⟩ | ⟨rfl, h⟩ | ⟨rfl, h⟩ := h
  · obtain ⟨n, rfl⟩ := Nat.exists_eq_add_of_le' h; rfl
  · exact inRange_false (by simpa using h) _
  · fin_cases hk <;> exact inRange_false (by simp; omega) _
  · fin_cases hk <;> exact inRange_false (by simp; omega) _
  · exact inRange_false (by simpa using h) _
  · exact tableReply_bad h

theorem queryRecord_noSuch {kind : Nat} (h : (kind = 1 ∧ s.tagSlot a = none) ∨ (kind = 3 ∧ s.articleList a = [])
    ∨ (kind = 11 ∧ s.findOrder a = none)
    ∨ (kind = 8 ∧ a ≤ 7 ∧ b < (s.carousel a).carriers ∧ ∀ x ∈ (s.carousel a).stops, x.carrier ≠ b)) :
    s.queryRecord a b kind = .error .noSuchRecord := by
  obtain ⟨rfl, h⟩ | ⟨rfl, h⟩ | ⟨rfl, h⟩ | ⟨rfl, ha, hb, h⟩ := h
  · simp only [State.queryRecord, h, foundOr]
  · simp only [State.queryRecord, State.keyedList, h, List.isEmpty_nil, if_true, foundOr]
  · simp only [State.queryRecord, h, foundOr]
  · have hfind : (s.carousel a).stops.find? (fun x => x.carrier = b) = none :=
      List.find?_eq_none.2 fun x hx => by simpa using h x hx
    simp [State.queryRecord, hfind, foundOr, inRange, ha, hb]

theorem queryRecord_done {kind : Nat} (h : kind ∈ [2, 4, 10, 13, 14, 17, 19] ∨ (kind = 0 ∧ a ≤ 6143)
    ∨ (kind ∈ [5, 7, 9, 15] ∧ a ≤ 7) ∨ (kind ∈ [6, 16] ∧ a ≤ 7 ∧ b < (s.carousel a).carriers)
    ∨ (kind = 12 ∧ a ≤ 23)) : ∃ data, s.queryRecord a b kind = .ok data := by
  obtain hk | ⟨rfl, ha⟩ | ⟨hk, ha⟩ | ⟨hk, ha, hb⟩ | ⟨rfl, ha⟩ := h
  · fin_cases hk <;> exact ⟨_, rfl⟩
  · exact ⟨_, inRange_true (by simpa using ha) _⟩
  · fin_cases hk <;> exact ⟨_, inRange_true (by simpa using ha) _⟩
  · fin_cases hk <;> exact ⟨_, inRange_true (by simp [ha, hb]) _⟩
  · exact ⟨_, inRange_true (by simpa using ha) _⟩

end

/-- A query's status is DONE with data or one of two refusals without, each where R168 gives it. -/
theorem exec_query_status {s : State} (hs : s.accepts) (src kind a b : Nat) :
    ∃ st data, exec (.query src kind a b) s = .next (State.finish s (s.placeReply src 2 st data))
      ∧ (st = .done ∨ (st = .badArgument ∨ st = .noSuchRecord) ∧ data = [])
      ∧ (∀ e, s.queryRecord a b kind = .error e → st = e)
      ∧ ((∃ d, s.queryRecord a b kind = .ok d) → st = .done) := by
  cases h : s.queryRecord a b kind with
  | ok data =>
    exact ⟨.done, data, exec_query_ok hs h, .inl rfl, fun _ he => (nomatch he), fun _ => rfl⟩
  | error e =>
    refine ⟨e, [], exec_query_error hs h, .inr ⟨queryRecord_refusal s a b kind e h, rfl⟩, fun e' he => Except.error.inj he,
      fun ⟨_, hd⟩ => nomatch hd⟩

theorem Presentation.bytes_placing (c : Nat) : Presentation.bytes ⟨c, [], 0, 0, []⟩ =
    be1 c ++ (packedLanes (fun _ => none) ++ ([0, 0, 0] ++ packedLanes (fun _ => none))) := by
  simp only [Presentation.bytes, List.append_assoc]
  rfl

theorem validityByte_eq (v : Bool) : validityByte v = if v = true then [0] else [1] := by cases v <;> rfl

theorem profileBytes_eq (i : Nat) (y : Profile) : profileBytes i y =
    be1 i ++ be1 y.window ++ be2 y.maxAge ++ yesNo y.substitute ++ yesNo y.sameCarousel ++ be1 y.strategy.code
      ++ (if y.refuseAhead then [1] else [0]) := by
  unfold profileBytes
  cases y.refuseAhead <;> rfl

theorem members_one {α : Type} (f : α → List Byte) (start : Nat) (xs : List α) :
    members f start 1 xs = match xs[start]? with | none => [] | some x => f x := by
  unfold members
  cases h : xs[start]? with
  | none => rw [List.drop_eq_nil_of_le (List.getElem?_eq_none_iff.1 h)]; rfl
  | some x =>
    obtain ⟨hlt, hx⟩ := List.getElem?_eq_some_iff.1 h
    rw [List.drop_eq_getElem_cons hlt, hx]
    exact List.append_nil _

/-- Settles O23. -/
theorem readingCommandsAnswerFromTheRecords : Obligations.ReadingCommandsAnswerFromTheRecords := by
  refine ⟨⟨fun s src hs => ⟨?identify, fun kind a b => ?status⟩, ?short⟩, ?long, ?codes⟩
  case identify =>
    have hanswer : answerTo (.identify src) s = ⟨s, .done, s.identity⟩ := rfl
    rw [exec_identify, command_of_answer hs hanswer]
    simp only [State.identity, Enables.bytes, State.inService, carouselNumbers, strapCode, List.append_assoc,
      commandPayload, commandNumber]
    rfl
  case status =>
    obtain ⟨st, data, hexec, hst, herror, hok⟩ := exec_query_status hs src kind a b
    exact ⟨st, data, hexec, hst, fun h => herror _ (queryRecord_bad h), fun h => herror _ (queryRecord_noSuch h),
      fun h => hok (queryRecord_done h)⟩
  case short =>
    intro s src a b hs
    refine ⟨fun h => exec_query_ok hs (inRange_true (by simpa using h) _), fun i h => exec_query_ok hs ?_,
      exec_query_ok hs rfl, exec_query_ok hs rfl, exec_query_ok hs rfl⟩
    simp only [State.queryRecord, h, foundOr]
  case long =>
    intro s src a b hs gives next next2 node enum running places lanes c p l r chosen
    have hgives : ∀ kind data, s.queryRecord a b kind = .ok data → gives kind data := fun _ _ h => exec_query_ok hs h
    have henum : enum = optEnum := by funext o; cases o <;> rfl
    clear_value gives enum
    subst henum
    refine ⟨fun ht keys articles tagged hk ha hg hkeys harticles htagged => hgives _ _ ?_, fun h => hgives _ _ ?_,
      fun ha => hgives _ _ ?_, fun ha hb => ⟨hgives _ _ ?_, hgives _ _ ?_⟩, fun ha => hgives _ _ ?_,
      fun before x after ha hb hx hc hbefore => hgives _ _ ?_, fun ha => hgives _ _ ?_, hgives _ _ ?_,
      fun o ho => hgives _ _ ?_, fun ha => hgives _ _ ?_, hgives _ _ ?_, fun ha => hgives _ _ ?_, hgives _ _ ?_,
      fun bank hbank => ⟨fun ht => hgives _ _ ?_, fun ht => hgives _ _ ?_, fun ht => hgives _ _ ?_⟩⟩
    case refine_1 =>
      have hr := ht.slotsRising
      have hkeyCount := length_eq_of_mem_iff (distinct_nodup _) hk fun z =>
        (State.mem_stockKeys hr z).trans (hkeys z).symm
      have hdemand := length_eq_of_mem_iff (distinct_nodup _) ha fun z =>
        (State.mem_demandArticles hr z).trans (harticles z).symm
      rw [← hkeyCount, ← hdemand, ← State.tagCount_eq hr hg htagged]
      rfl
    case refine_2 =>
      simp only [State.queryRecord, State.keyedList, List.isEmpty_iff, h, if_false, foundOr]
      rfl
    case refine_3 =>
      refine (inRange_true (by simpa using ha) _).trans (congrArg Except.ok ?_)
      show c.bytes = _
      clear_value c
      unfold Carousel.bytes
      obtain hm | ⟨w, target, leg | leg⟩ := c.move <;> rfl
    case refine_4 =>
      refine (inRange_true (by simp [ha, show b < (s.carousel a).carriers from hb]) _).trans (congrArg Except.ok ?_)
      simp only [carrierValues, sequence1, List.length_range]
      rfl
    case refine_5 =>
      refine (inRange_true (by simp [ha, show b < (s.carousel a).carriers from hb]) _).trans (congrArg Except.ok ?_)
      simp only [carrierValues, sequence1, List.length_range]
      rfl
    case refine_6 =>
      refine (inRange_true (by simpa using ha) _).trans (congrArg Except.ok ?_)
      simp only [sequence1, List.append_assoc]
      rfl
    case refine_7 =>
      have hfind : (s.carousel a).stops.find? (fun x => x.carrier = b) = some x := by
        show c.stops.find? _ = some x
        rw [hx, List.find?_append, List.find?_eq_none.2 fun y hy => by simpa using hbefore y hy, List.find?_cons_of_pos
          (by simpa using hc)]
        rfl
      refine (inRange_true (by simp [ha, show b < (s.carousel a).carriers from hb]) _).trans ?_
      simp only [hfind, foundOr]
      rfl
    case refine_8 =>
      refine (inRange_true (by simpa using ha) _).trans (congrArg Except.ok ?_)
      show p.bytes = _
      clear_value p
      simp only [Port.bytes, Display.bytes, List.append_assoc]
      cases hp : p.work with
      | idle | calling | presenting | placing =>
        simp only [Port.presentationGroup, hp, Presentation.bytes_placing]
        cases p.putaway <;> rfl
    case refine_9 =>
      simp only [State.queryRecord, found, sequence1, List.append_assoc]
      rfl
    case refine_10 =>
      simp only [State.queryRecord, ho, foundOr]
      refine congrArg Except.ok ?_
      have hfirst : (if b = 0 then 1 else b) = b - 1 + 1 := by split <;> omega
      simp only [hfirst, Order.reply, members_one, Order.bytes, nextLine, List.append_assoc, Nat.add_sub_cancel]
      obtain hline | x := o.lines[b - 1]?
      · cases o.shortage <;> rfl
      · simp only [Line.bytes, List.append_assoc]
        cases o.shortage <;> rcases x.captured with _ | y <;> rcases x.extremes with _ | ⟨lo, hi⟩ <;>
          rcases x.mark with _ | m <;> rfl
    case refine_11 =>
      refine (inRange_true (by simpa using ha) _).trans (congrArg Except.ok ?_)
      simp only [sequence1, List.append_assoc]
      rfl
    case refine_12 =>
      simp only [State.queryRecord, found, sequence1, List.append_assoc]
      rfl
    case refine_13 => exact inRange_true (by simpa using ha) _
    case refine_14 =>
      simp only [State.queryRecord, found, Policy.bytes, Bank.validityBytes, validityByte_eq, List.append_assoc]
      obtain hx | x := s.policy.session
      · rfl
      · simp only [sessionBytes, List.append_assoc]
        cases x.failed <;> rfl
    case refine_15 =>
      rw [queryRecord_table hbank (t := .traffic) (by rw [ht]; rfl)]
      cases bank <;> rfl
    case refine_16 =>
      rw [queryRecord_table hbank (t := .article) (by rw [ht]; rfl)]
      cases bank <;> rfl
    case refine_17 =>
      rw [queryRecord_table hbank (t := .profile) (by rw [ht]; rfl)]
      simp only [Bank.stretch, profileBytes_eq]
      cases bank <;> rfl
  case codes =>
    refine ⟨rfl, rfl, rfl, rfl, rfl, fun _ _ => rfl, rfl, rfl, rfl, fun j hj => ?_, rfl, rfl, rfl, rfl, rfl, rfl, rfl, rfl,
      rfl, rfl, rfl, fun _ _ _ _ => rfl, fun _ _ _ => rfl, rfl, rfl⟩
    have hpending : (byteOf (64 + j)).toNat = 64 + j := byteOf_read (by simp only [byte1, decide_eq_true_eq]; omega)
    have hdone : (byteOf (128 + j)).toNat = 128 + j := byteOf_read (by simp only [byte1, decide_eq_true_eq]; omega)
    simp only [List.map_cons, List.map_nil, Indicator.byte, hpending, hdone]
    rfl

end Sys2Proof.Machine

/-! # The family of the whole part: the audit's settings and log, the calendar and the enables -/

namespace Sys2Proof.Machine

/-! ## Zones and the cursor (R117, R130) -/

theorem clearStreaks_get (carriers : List Nat) (m : Sparse Nat) (x : Nat) :
    sparseGet 0 x (clearStreaks carriers m) = if x ∈ carriers then 0 else sparseGet 0 x m := by
  induction carriers generalizing m with
  | nil => simp [clearStreaks]
  | cons c carriers ih =>
    show sparseGet 0 x (clearStreaks carriers (sparseErase c m)) = _
    rw [ih]
    by_cases hx : x = c
    · subst hx
      simp [sparseGet, sparseFind_erase_same]
    · simp [sparseGet, sparseFind_erase_other hx, hx]

theorem Carousel.mem_zoneCarriers (c : Carousel) (z x : Nat) :
    x ∈ c.zoneCarriers z ↔ x < c.carriers ∧ c.zone x = z := by
  simp only [Carousel.zoneCarriers, List.mem_filter, List.mem_range, decide_eq_true_eq]

section
variable (s : State) (k z : Nat)

theorem State.enterZone_record : (s.enterZone k (some z)).auditRecord k =
    { s.auditRecord k with
      cursor := some z, streaks := clearStreaks ((s.carousel k).zoneCarriers z) (s.auditRecord k).streaks,
      counts := sparseErase z (s.auditRecord k).counts } :=
  State.onAudit_same s k _

theorem State.enterZone_count_same : ((s.enterZone k (some z)).auditRecord k).count z = 0 := by
  simp only [State.enterZone_record, AuditRecord.count, sparseGet, sparseFind_erase_same, Option.getD_none]

theorem State.enterZone_count_other {y : Nat} (h : y ≠ z) :
    ((s.enterZone k (some z)).auditRecord k).count y = (s.auditRecord k).count y := by
  simp only [State.enterZone_record, AuditRecord.count, sparseGet, sparseFind_erase_other h]

theorem State.enterZone_streak (x : Nat) : ((s.enterZone k (some z)).auditRecord k).streak x =
    if x < (s.carousel k).carriers ∧ (s.carousel k).zone x = z then 0 else (s.auditRecord k).streak x := by
  simp only [State.enterZone_record, AuditRecord.streak, clearStreaks_get, Carousel.mem_zoneCarriers]

theorem State.enterZone_eq : s.enterZone k (some z) = s.onAudit k (fun a => { a with
    cursor := some z, streaks := ((s.enterZone k (some z)).auditRecord k).streaks,
    counts := ((s.enterZone k (some z)).auditRecord k).counts }) := by
  rw [State.enterZone_record]
  rfl

/-- A zone is active where it is enabled and has a carrier (R117). -/
theorem State.zoneActive_iff : s.zoneActive k z = true ↔ (s.auditRecord k).enabled.getLsbD z = true
    ∧ ∃ x < (s.carousel k).carriers, (s.carousel k).zone x = z := by
  have hcarrier : (!((s.carousel k).zoneCarriers z).isEmpty) = true ↔
      ∃ x < (s.carousel k).carriers, (s.carousel k).zone x = z := by
    rw [Bool.not_eq_true', List.isEmpty_eq_false_iff_exists_mem]
    exact exists_congr fun x => (s.carousel k).mem_zoneCarriers z x
  rw [State.zoneActive, Bool.and_eq_true, hcarrier]

theorem State.lowestActive_iff : (s.activeZones k).head? = some z ↔
    z < 16 ∧ s.zoneActive k z = true ∧ ∀ y < z, s.zoneActive k y = false := by
  rw [State.activeZones, List.head?_filter, List.find?_range_eq_some, List.mem_range]
  constructor
  · rintro ⟨ha, hz, hlow⟩
    exact ⟨hz, ha, fun y hy => by simpa using hlow y hy⟩
  · rintro ⟨hz, ha, hlow⟩
    exact ⟨ha, hz, fun y hy => by simpa using hlow y hy⟩

end

/-! ## AUDIT-SET (R119) -/

theorem State.keepsCursor_iff (s : State) (k : Nat) (before : AuditMode) : s.keepsCursor k before = true ↔
    before = .zoneCycle ∧ ∃ z, (s.auditRecord k).cursor = some z ∧ s.zoneActive k z = true := by
  rw [State.keepsCursor, Bool.and_eq_true, decide_eq_true_eq]
  cases (s.auditRecord k).cursor <;> simp

theorem State.settleCursor_idle {s : State} {k : Nat} (h : (s.auditRecord k).mode ≠ .zoneCycle) (before : AuditMode) :
    s.settleCursor k before = s := by
  unfold State.settleCursor
  split
  · rfl
  · rfl
  · exact absurd ‹_› h

theorem State.settleCursor_cycle {s : State} {k : Nat} (h : (s.auditRecord k).mode = .zoneCycle) (before : AuditMode) :
    s.settleCursor k before = (if s.keepsCursor k before = true then s else s.enterLowest k).certify k := by
  simp only [State.settleCursor, h]

theorem auditMode_bad {k m q : Nat} (h : 7 < k ∨ 2 < m ∨ q = 0 ∨ 4 < q) (zones : BitVec 16) (auto : Bool) (s : State) :
    auditSetAnswer k m zones q auto s = ⟨s, .badArgument, []⟩ := by
  unfold auditSetAnswer
  split
  · rfl
  · rename_i mode hm
    have hrange : m ≤ 2 := by
      match m, hm with
      | 0, _ | 1, _ | 2, _ => decide
    rw [if_pos (by omega)]
    rfl

theorem auditSet_good {k m q : Nat} {mode : AuditMode} (hm : auditModeOf? m = some mode) (hk : k ≤ 7) (h1 : 1 ≤ q)
    (h4 : q ≤ 4) (zones : BitVec 16) (auto : Bool) (s : State) : auditSetAnswer k m zones q auto s =
      ⟨(s.onAudit k (fun a => { a with mode := mode, enabled := zones, quota := q, autoCorrect := auto })).settleCursor
        k (s.auditRecord k).mode, .done, []⟩ := by
  simp only [auditSetAnswer, hm]
  rw [if_neg (by omega)]

/-! ## READ-AUDIT-LOG (R132) -/

theorem readLog_empty {s : State} (h : s.audit.log = []) :
    readLogAnswer s = ⟨s, .done, be1 0 ++ be1 0 ++ be2 Config.noSequence.toNat⟩ := by
  have hsame : ({ s with audit := { s.audit with log := s.audit.log.drop 4 } } : State) = s := by
    have hdrop : s.audit.log.drop 4 = s.audit.log := by rw [h]; rfl
    rw [hdrop]
  unfold readLogAnswer
  dsimp only
  rw [hsame, h]
  rfl

theorem readLog_entries {s : State} {e : LogEntry} {rest : List LogEntry} (h : s.audit.log = e :: rest) :
    readLogAnswer s = ⟨{ s with audit := { s.audit with log := rest.drop 3 } }, .done,
      be1 (min 4 (rest.length + 1)) ++ be1 (rest.length - 3) ++ be2 e.sequence
        ++ (e :: rest.take 3).flatMap LogEntry.bytes⟩ := by
  have hcount : min rest.length 3 + 1 = min 4 (rest.length + 1) := by omega
  simp only [readLogAnswer, h, List.length_cons, List.length_take, List.length_drop, List.take_succ_cons,
    List.drop_succ_cons, firstSequence, Nat.min_comm, ← hcount]

/-! ## What a change of zones or carriers does (R130) -/

section
variable {s : State} {k : Nat}

theorem State.zonesChanged_idle (h : (s.auditRecord k).mode ≠ .zoneCycle) : s.zonesChanged k = s := by
  unfold State.zonesChanged
  split
  · exact absurd ‹_› h
  · exact absurd ‹_› h
  all_goals rfl

theorem State.zonesChanged_absent (h : (s.auditRecord k).mode = .zoneCycle) (hc : (s.auditRecord k).cursor = none) :
    s.zonesChanged k = s.enterLowest k := by
  simp only [State.zonesChanged, h, hc]

theorem State.zonesChanged_cursor {z : Nat} (h : (s.auditRecord k).mode = .zoneCycle)
    (hc : (s.auditRecord k).cursor = some z) :
    s.zonesChanged k = if s.zoneActive k z = true then s.certify k else s.enterZone k (s.zoneAfter k z) := by
  simp only [State.zonesChanged, h, hc]

theorem State.carriersChanged_eq : s.carriersChanged k =
    if (s.auditRecord k).mode = .zoneCycle then
      (s.onAudit k (fun a => { a with streaks := [], counts := [] })).enterLowest k
    else s.onAudit k (fun a => { a with streaks := [], counts := [] }) := by
  simp only [State.carriersChanged, State.onAudit_same]

end

/-- Settles O24. -/
theorem auditIsSetAndItsLogRead : Obligations.AuditIsSetAndItsLogRead := by
  refine ⟨⟨⟨fun s src hs => ⟨fun h => ?empty, fun e rest h => ?entries⟩,
    fun s src k m q zones auto hs => ⟨fun h => ?bad, ?set⟩, ?entering⟩, ?changed⟩, State.enterZone_eq⟩
  case empty =>
    rw [exec_readAuditLog]
    exact command_of_answer hs (readLog_empty h)
  case entries =>
    rw [exec_readAuditLog]
    exact command_of_answer hs (readLog_entries h)
  case bad =>
    rw [exec_auditSet]
    exact command_of_answer hs (auditMode_bad h zones auto s)
  case set =>
    intro hk h1 h4 t kept
    have hmode : ∀ mode, ((t mode).auditRecord k).mode = mode := fun mode => by simp only [t, State.onAudit_same]
    have hkept : (t .zoneCycle).keepsCursor k (s.auditRecord k).mode = true ↔ kept := by
      simp only [State.keepsCursor_iff, t, State.onAudit_same, kept]
    have hanswer : ∀ mode u, auditModeOf? m = some mode → (t mode).settleCursor k (s.auditRecord k).mode = u →
        exec (.auditSet src k m zones q auto) s = .next (State.finish s (u.placeReply src 30 .done [])) := by
      intro mode u hm hu
      rw [exec_auditSet]
      exact command_of_answer hs (hu ▸ auditSet_good hm hk h1 h4 zones auto s)
    clear_value t kept
    refine ⟨?_, ?_, ?_, ?_⟩
    · rintro rfl
      exact hanswer .off _ rfl (State.settleCursor_idle (by rw [hmode]; decide) _)
    · rintro rfl
      exact hanswer .continuous _ rfl (State.settleCursor_idle (by rw [hmode]; decide) _)
    · rintro rfl h
      exact hanswer .zoneCycle _ rfl (by rw [State.settleCursor_cycle (hmode _), if_pos (hkept.2 h)])
    · rintro rfl h
      exact hanswer .zoneCycle _ rfl (by rw [State.settleCursor_cycle (hmode _), if_neg (mt hkept.1 h)]; rfl)
  case entering =>
    intro s k z a b
    exact ⟨by simp only [b, State.enterZone_record], State.enterZone_count_same s k z,
      fun y hy => State.enterZone_count_other s k z hy,
      fun x => ⟨fun h => by rw [State.enterZone_streak, if_pos h], fun h => by rw [State.enterZone_streak, if_neg h]⟩,
      rfl, fun _ => State.zoneActive_iff s k z⟩
  case changed =>
    intro s k a lowest cleared
    refine ⟨fun h => ⟨State.zonesChanged_idle h, ?_⟩, fun h => ⟨?_, State.zonesChanged_absent h, fun z hc hz => ?_,
      fun z hc hz => ?_⟩, State.lowestActive_iff s k⟩
    · rw [State.carriersChanged_eq, if_neg h]
    · rw [State.carriersChanged_eq, if_pos h]; rfl
    · rw [State.zonesChanged_cursor h hc, if_pos hz]
    · rw [State.zonesChanged_cursor h hc, if_neg (by rw [hz]; decide)]

/-! ## SET-CALENDAR and SET-NOTICES (R9, R165, R170) -/

theorem dateValid_iff (w y : Nat) : dateValid w y = true ↔ 1 ≤ w ∧ w ≤ 53 ∧ y ≤ 99 := by
  simp only [dateValid, Bool.and_eq_true, decide_eq_true_eq, and_assoc]

theorem setCalendar_good {w y : Nat} (h : 1 ≤ w ∧ w ≤ 53 ∧ y ≤ 99) (s : State) : setCalendarAnswer w y s =
    ⟨{ s with stock := { s.stock with calendar := ⟨w, y, y * 53 + (w - 1), true⟩ } }, .done, []⟩ :=
  if_pos ((dateValid_iff w y).2 h)

theorem setCalendar_bad {w y : Nat} (h : ¬(1 ≤ w ∧ w ≤ 53 ∧ y ≤ 99)) (s : State) :
    setCalendarAnswer w y s = ⟨s, .badArgument, []⟩ :=
  if_neg (mt (dateValid_iff w y).1 h)

theorem State.broadcastCalendar_good {w y : Nat} (h : 1 ≤ w ∧ w ≤ 53 ∧ y ≤ 99) (s : State) :
    s.broadcastCalendar w y = { s with stock := { s.stock with calendar := ⟨w, y, y * 53 + (w - 1), true⟩ } } :=
  if_pos ((dateValid_iff w y).2 h)

theorem State.broadcastCalendar_bad {w y : Nat} (h : ¬(1 ≤ w ∧ w ≤ 53 ∧ y ≤ 99)) (s : State) :
    s.broadcastCalendar w y = s :=
  if_neg (mt (dateValid_iff w y).1 h)

section
variable {s : State} (hs : s.serving = true) (src w y : Nat)
include hs

theorem exec_calendarBroadcast_taken (h : s.command.intake = []) :
    exec (.setCalendarBroadcast src w y) s = .next (State.finish s (s.broadcastCalendar w y)) := by
  rw [exec_setCalendarBroadcast, served_eq hs, State.issueBroadcast, h, List.isEmpty_nil, if_pos rfl]

theorem exec_calendarBroadcast_joins (h : s.command.intake ≠ []) :
    exec (.setCalendarBroadcast src w y) s =
      .next (State.finish s (s.intakeJoin ⟨src, [4, BitVec.ofNat 8 w, BitVec.ofNat 8 y], true⟩).pumpAll) := by
  rw [exec_setCalendarBroadcast, served_eq hs, State.issueBroadcast, if_neg (by simpa using h)]
  rfl

end

/-- Settles O25. -/
theorem calendarAndEnablesAreSet : Obligations.CalendarAndEnablesAreSet := by
  refine ⟨⟨fun s src w y hs => ⟨fun h => ?set, fun h => ?bad⟩, fun s src w y hs hempty => ⟨fun h => ?broadcast,
    fun h => ?badBroadcast⟩, fun s src o l p m a st hs => ?enables⟩,
    fun s src w y hs hne => ⟨fun hroom => ?waits, fun hfull => ?lost⟩⟩
  case set =>
    rw [exec_setCalendar]
    exact command_of_answer hs (setCalendar_good h s)
  case bad =>
    rw [exec_setCalendar]
    exact command_of_answer hs (setCalendar_bad h s)
  case broadcast => rw [exec_calendarBroadcast_taken hs src w y hempty, State.broadcastCalendar_good h]
  case badBroadcast => rw [exec_calendarBroadcast_taken hs src w y hempty, State.broadcastCalendar_bad h]
  case enables =>
    have hanswer : answerTo (.setNotices src o l p m a st) s =
        ⟨{ s with command := { s.command with enables := ⟨o, l, p, m, a, st⟩ } }, .done, []⟩ := rfl
    rw [exec_setNotices]
    exact command_of_answer hs hanswer
  case waits => rw [exec_calendarBroadcast_joins hs src w y hne, State.intakeJoin_room hroom]
  case lost => rw [exec_calendarBroadcast_joins hs src w y hne, State.intakeJoin_full hfull]; rfl

end Sys2Proof.Machine

/-! # The family of carousels and ports: configuration, service, jogs and replans -/

namespace Sys2Proof.Machine

/-! ## CONFIGURE-CAROUSEL (R52) -/

theorem State.slots_all_iff {s : State} (hr : sparseRising s.stock.slots = true) {P : Nat → Slot → Bool}
    (hP : ∀ i, P i {} = true) : s.stock.slots.all (fun e => P e.1 e.2) = true ↔ ∀ i, P i (s.slot i) = true := by
  rw [List.all_eq_true]
  constructor
  · intro h i
    by_cases he : s.slot i = {}
    · rw [he, hP]
    · exact h _ (State.mem_of_slot he)
  · rintro h ⟨i, x⟩ hm
    rw [← State.slot_of_mem hr hm]
    exact h i

theorem State.unmapsEmpty_iff {s : State} (ht : TablesOk s) (k n p : Nat) : s.unmapsEmpty k n p = true ↔
    ∀ i < 6144, s.mapped i = true → slotCarousel i = k →
      (slotCarrier i < n ∧ slotPosition i < p) ∨ (s.slot i).content = .empty := by
  refine (State.slots_all_iff ht.slotsRising (P := fun i x => slotCarousel i ≠ k || !s.mapped i || x.content = .empty
    || (slotCarrier i < n && slotPosition i < p)) fun i => by simp).trans (forall_congr' fun i => ?_)
  have hlow : s.mapped i = true → i < 6144 := by
    simp only [State.mapped, Bool.and_eq_true, decide_eq_true_eq]
    exact fun h => h.1.1
  simp only [Bool.or_eq_true, Bool.and_eq_true, decide_eq_true_eq, Bool.not_eq_true']
  constructor
  · rintro h - hm hk
    rcases h with ((h | h) | h) | h
    · exact absurd hk h
    · rw [hm] at h; cases h
    · exact .inr h
    · exact .inl h
  · intro h
    by_cases hk : slotCarousel i = k
    · by_cases hm : s.mapped i = true
      · exact (h (hlow hm) hm hk).elim .inr fun h => .inl (.inr h)
      · exact .inl (.inl (.inr (by simpa using hm)))
    · exact .inl (.inl (.inl hk))

theorem State.nodesAllowed_iff (s : State) (k d po g : Nat) : s.nodesAllowed k d po g = true ↔
    (∀ x ∈ [d, po, g], 1 ≤ x ∧ x ≤ 62 ∧ x ≠ s.address ∧ s.lanes.conveyor ≠ some x
      ∧ ∀ j < 8, j ≠ k → (s.carousel j).usesNode x = false) ∧ d ≠ po ∧ d ≠ g ∧ po ≠ g := by
  have hnode : ∀ x, (s.nodeAllowed x && s.lanes.conveyor ≠ some x
      && carouselNumbers.all (fun j => j = k || !(s.carousel j).usesNode x)) = true ↔
      1 ≤ x ∧ x ≤ 62 ∧ x ≠ s.address ∧ s.lanes.conveyor ≠ some x
        ∧ ∀ j < 8, j ≠ k → (s.carousel j).usesNode x = false := by
    intro x
    simp only [Bool.and_eq_true, State.nodeAllowed_iff, decide_eq_true_eq, List.all_eq_true, carouselNumbers,
      List.mem_range, Bool.or_eq_true, Bool.not_eq_true', or_iff_not_imp_left, and_assoc, ne_eq]
  simp only [State.nodesAllowed, Bool.and_eq_true, List.all_eq_true, decide_eq_true_eq, and_assoc, ne_eq] at hnode ⊢
  exact and_congr_left' (forall₂_congr fun x _ => hnode x)

section
variable {s : State} {k n p d po g : Nat} {bi : Bool}

theorem configure_bad (h : ¬(k ≤ 7 ∧ 16 ≤ n ∧ n ≤ 96 ∧ 1 ≤ p ∧ p ≤ 8 ∧ s.nodesAllowed k d po g = true)) :
    configureAnswer k n p bi d po g s = ⟨s, .badArgument, []⟩ := by
  have hbad : 7 < k ∨ n < 16 ∨ 96 < n ∨ p < 1 ∨ 8 < p ∨ s.nodesAllowed k d po g = false := by
    by_contra hgood
    simp only [not_or, Nat.not_lt, Bool.not_eq_false] at hgood
    exact h hgood
  rw [configureAnswer, if_pos hbad]
  rfl

variable (h : k ≤ 7 ∧ 16 ≤ n ∧ n ≤ 96 ∧ 1 ≤ p ∧ p ≤ 8 ∧ s.nodesAllowed k d po g = true)
include h

theorem configure_refused (hr : ¬((s.carousel k).state = .offline ∧ s.unmapsEmpty k n p = true)) :
    configureAnswer k n p bi d po g s = ⟨s, .refusedState, []⟩ := by
  obtain ⟨hk, hn, hn', hp, hp', hnodes⟩ := h
  rw [configureAnswer, if_neg (by rw [hnodes]; simp; omega)]
  by_cases hstate : (s.carousel k).state = .offline
  · have hu : (!s.unmapsEmpty k n p) = true := by simpa using fun hu => hr ⟨hstate, hu⟩
    rw [if_neg (not_not.2 hstate), if_pos hu]
    rfl
  · rw [if_pos hstate]
    rfl

theorem configure_good (hstate : (s.carousel k).state = .offline) (hu : s.unmapsEmpty k n p = true) :
    configureAnswer k n p bi d po g s =
      ⟨if n = (s.carousel k).carriers then s.onCarousel k (fun c => c.configured n p bi d po g)
        else (s.onCarousel k (fun c => c.configured n p bi d po g)).carriersChanged k, .done, []⟩ := by
  obtain ⟨hk, hn, hn', hp, hp', hnodes⟩ := h
  rw [configureAnswer, if_neg (by rw [hnodes]; simp; omega), if_neg (not_not.2 hstate), if_neg (by simp [hu])]

end

/-! ## SET-ZONE-MAP (R53) -/

/-- Zones written from a carrier on stand there, and the others are as they were. -/
theorem writeZones_get (zs : List Nat) (f : Nat) (m : Sparse Nat) (x : Nat) : sparseGet 0 x (writeZones f zs m) =
    if f ≤ x ∧ x < f + zs.length then zs.getD (x - f) 0 else sparseGet 0 x m := by
  induction zs generalizing f m with
  | nil => rw [if_neg (by simp)]; rfl
  | cons z zs ih =>
    rw [writeZones, ih, sparseGet_set]
    by_cases hx : x = f
    · subst hx; simp
    · rw [if_neg hx]
      by_cases hin : f + 1 ≤ x ∧ x < f + 1 + zs.length
      · rw [if_pos hin, if_pos (by simp only [List.length_cons]; omega)]
        obtain ⟨i, rfl⟩ := Nat.exists_eq_add_of_le hin.1
        rw [show f + 1 + i - (f + 1) = i by omega, show f + 1 + i - f = i + 1 by omega, List.getD_cons_succ]
      · rw [if_neg hin, if_neg (by simp only [List.length_cons]; omega)]

section
variable {s : State} {k f : Nat} {zs : List Nat}

theorem zoneMap_valid_iff : ¬(7 < k ∨ zs.length = 0 ∨ 48 < zs.length ∨ (s.carousel k).carriers < f + zs.length
      ∨ zs.any (fun z => 15 < z) = true) ↔
    k ≤ 7 ∧ 1 ≤ zs.length ∧ zs.length ≤ 48 ∧ f + zs.length ≤ (s.carousel k).carriers ∧ ∀ z ∈ zs, z ≤ 15 := by
  have hzones : zs.any (fun z => 15 < z) = true ↔ ¬∀ z ∈ zs, z ≤ 15 := by simp
  simp only [hzones, not_or, Nat.not_lt, not_not, Nat.one_le_iff_ne_zero]

theorem zoneMap_bad (h : ¬(k ≤ 7 ∧ 1 ≤ zs.length ∧ zs.length ≤ 48 ∧ f + zs.length ≤ (s.carousel k).carriers
    ∧ ∀ z ∈ zs, z ≤ 15)) : zoneMapAnswer k f zs s = ⟨s, .badArgument, []⟩ :=
  if_pos (by rwa [← zoneMap_valid_iff, not_not] at h)

theorem zoneMap_good (h : k ≤ 7 ∧ 1 ≤ zs.length ∧ zs.length ≤ 48 ∧ f + zs.length ≤ (s.carousel k).carriers
    ∧ ∀ z ∈ zs, z ≤ 15) : zoneMapAnswer k f zs s =
      ⟨(s.onCarousel k (fun c => { c with zones := writeZones f zs (s.carousel k).zones })).zonesChanged k, .done, []⟩ :=
  if_neg (zoneMap_valid_iff.2 h)

end

/-! ## SET-TIMING (R54) -/

theorem timing_bad {k : Nat} (h : 7 < k) (on : Bool) (v d i b : Nat) (s : State) :
    timingAnswer k on v d i b s = ⟨s, .badArgument, []⟩ := if_pos h

theorem timing_good {k : Nat} (h : k ≤ 7) (on : Bool) (v d i b : Nat) (s : State) : timingAnswer k on v d i b s =
    ⟨s.onCarousel k (fun c => { c with
        overrideOn := on, overrideValue := max 50 (min v 10000), dwell := min d 10000,
        sweepDelay := min i 3600, bypassLimit := min b 15, sweepTimer := none }),
      if 50 ≤ v ∧ v ≤ 10000 ∧ d ≤ 10000 ∧ i ≤ 3600 ∧ b ≤ 15 then .done else .clamped, []⟩ := by
  have hvalues : (clamp 50 10000 v = v ∧ clamp 0 10000 d = d ∧ clamp 0 3600 i = i ∧ clamp 0 15 b = b) ↔
      (50 ≤ v ∧ v ≤ 10000 ∧ d ≤ 10000 ∧ i ≤ 3600 ∧ b ≤ 15) := by
    simp only [clamp_eq_self_iff, Nat.zero_le, true_and, and_assoc]
  simp only [timingAnswer, Nat.not_lt.2 h, if_false, hvalues]
  simp only [clamp_eq_max_min (show 50 ≤ 10000 by decide), clamp_eq_max_min (Nat.zero_le _), Nat.zero_max]

/-- Settles O26. -/
theorem carouselIsConfiguredMappedAndTimed : Obligations.CarouselIsConfiguredMappedAndTimed := by
  refine ⟨fun s src k n p d po g bi hs ht => ?configure,
    fun s src k f zs hs => ⟨fun h => ?mapBad, fun h => ?mapGood⟩,
    fun s src k v d i b on hs => ⟨fun h => ?timingBad, fun h => ?timingGood⟩⟩
  case configure =>
    intro nodesFree valid fits
    have hvalid : valid ↔ k ≤ 7 ∧ 16 ≤ n ∧ n ≤ 96 ∧ 1 ≤ p ∧ p ≤ 8 ∧ s.nodesAllowed k d po g = true := by
      rw [State.nodesAllowed_iff]
      show (k ≤ 7 ∧ 16 ≤ n ∧ n ≤ 96 ∧ 1 ≤ p ∧ p ≤ 8 ∧ d ≠ po ∧ d ≠ g ∧ po ≠ g ∧ nodesFree) ↔
        (k ≤ 7 ∧ 16 ≤ n ∧ n ≤ 96 ∧ 1 ≤ p ∧ p ≤ 8 ∧ nodesFree ∧ d ≠ po ∧ d ≠ g ∧ po ≠ g)
      clear_value nodesFree
      tauto
    have hfits : s.unmapsEmpty k n p = true ↔ fits := State.unmapsEmpty_iff ht k n p
    clear_value nodesFree valid fits
    rw [exec_configureCarousel]
    refine ⟨fun h => command_of_answer hs (configure_bad (mt hvalid.2 h)), fun h hr => ?_, fun h hstate hf => ?_⟩
    · exact command_of_answer hs (configure_refused (hvalid.1 h) (by rwa [hfits]))
    · exact command_of_answer hs (configure_good (hvalid.1 h) hstate (hfits.2 hf))
  case mapBad =>
    rw [exec_setZoneMap]
    exact command_of_answer hs (zoneMap_bad h)
  case mapGood =>
    refine ⟨writeZones f zs (s.carousel k).zones, fun x => ⟨?_, fun hx => ?_⟩, ?_⟩
    · rintro i rfl hi
      rw [writeZones_get, if_pos (by omega), Nat.add_sub_cancel_left]
    · rw [writeZones_get, if_neg (by omega)]; rfl
    · rw [exec_setZoneMap]
      exact command_of_answer hs (zoneMap_good h)
  case timingBad =>
    rw [exec_setTiming]
    exact command_of_answer hs (timing_bad h on v d i b s)
  case timingGood =>
    rw [exec_setTiming]
    exact command_of_answer hs (timing_good h on v d i b s)

end Sys2Proof.Machine

/-! # The family of carousels and ports: service, jogs and replans -/

namespace Sys2Proof.Machine

/-! ## CAROUSEL-ONLINE and CAROUSEL-OFFLINE (R55) -/

theorem Carousel.complete_iff (c : Carousel) : c.complete = true ↔ c.drive ≠ none ∧ c.port ≠ none ∧ c.gate ≠ none := by
  simp only [Carousel.complete, Bool.and_eq_true, Option.isSome_iff_ne_none, and_assoc]

theorem CarouselState.settled_iff (x : CarouselState) :
    x.settled = true ↔ x = .standing ∨ x = .fault ∨ x = .yielded := by
  cases x <;> simp [CarouselState.settled]

section
variable {s : State} {k : Nat}

theorem online_bad (h : 7 < k) : onlineAnswer k s = ⟨s, .badArgument, []⟩ := if_pos h

theorem online_refused (hk : k ≤ 7) (h : ¬((s.carousel k).state = .offline ∧ (s.carousel k).complete = true)) :
    onlineAnswer k s = ⟨s, .refusedState, []⟩ := by
  rw [onlineAnswer, if_neg (Nat.not_lt.2 hk), if_pos (by rwa [← Bool.not_eq_true, ← not_and_or])]
  rfl

theorem online_good (hk : k ≤ 7) (h : (s.carousel k).state = .offline ∧ (s.carousel k).complete = true) :
    onlineAnswer k s = ⟨s.enterStanding k, .done, []⟩ := by
  rw [onlineAnswer, if_neg (Nat.not_lt.2 hk), if_neg (by simp [h])]

theorem offline_bad (h : 7 < k) : offlineAnswer k s = ⟨s, .badArgument, []⟩ := if_pos h

theorem offline_refused (hk : k ≤ 7)
    (h : ¬((s.carousel k).state.settled = true ∧ (s.carousel k).stops = [] ∧ (s.port k).work = .idle)) :
    offlineAnswer k s = ⟨s, .refusedState, []⟩ := by
  rw [offlineAnswer, if_neg (Nat.not_lt.2 hk), if_pos (by rwa [← Bool.not_eq_true, ← not_and_or, ← not_and_or])]
  rfl

theorem offline_good (hk : k ≤ 7)
    (h : (s.carousel k).state.settled = true ∧ (s.carousel k).stops = [] ∧ (s.port k).work = .idle) :
    offlineAnswer k s = ⟨s.onCarousel k (fun c => { c with
        state := .offline, cause := none, statusSinceFault := false, moveTimer := none, dwellTimer := none,
        sweepTimer := none }), .done, []⟩ := by
  rw [offlineAnswer, if_neg (Nat.not_lt.2 hk), if_neg (by simp [h])]
  rfl

/-! ## CLEAR-FAULT and RECLAIM (R71, R73) -/

theorem clearFault_bad (h : 7 < k) : clearFaultAnswer k s = ⟨s, .badArgument, []⟩ := if_pos h

theorem clearFault_refused (hk : k ≤ 7) (h : ¬((s.carousel k).state = .fault
      ∧ ¬((s.carousel k).cause = some .driveAbsent ∧ (s.carousel k).statusSinceFault = false)
      ∧ (s.carousel k).lastFault = none)) : clearFaultAnswer k s = ⟨s, .refusedState, []⟩ := by
  rw [clearFaultAnswer, if_neg (Nat.not_lt.2 hk), if_pos]
  · rfl
  · rw [Option.isSome_iff_ne_none]; tauto

theorem clearFault_good (hk : k ≤ 7) (h : (s.carousel k).state = .fault
      ∧ ¬((s.carousel k).cause = some .driveAbsent ∧ (s.carousel k).statusSinceFault = false)
      ∧ (s.carousel k).lastFault = none) :
    clearFaultAnswer k s = ⟨(s.onCarousel k (fun c => { c with cause := none })).enterStanding k, .done, []⟩ := by
  rw [clearFaultAnswer, if_neg (Nat.not_lt.2 hk), if_neg]
  rw [Option.isSome_iff_ne_none]; tauto

theorem State.foreignNode_isSome (o : Option Nat) : (s.foreignNode o).isSome = true ↔ ∃ n, o = some n ∧ n ≠ s.address := by
  cases o with
  | none => simp [State.foreignNode]
  | some n =>
    simp only [State.foreignNode, Option.some.injEq, exists_eq_left', ne_eq]
    split <;> simp [*]

theorem reclaim_bad (h : 7 < k) : reclaimAnswer k s = ⟨s, .badArgument, []⟩ := if_pos h

theorem reclaim_refused (hk : k ≤ 7) (h : (s.carousel k).state ≠ .yielded) :
    reclaimAnswer k s = ⟨s, .refusedState, []⟩ := by
  rw [reclaimAnswer, if_neg (Nat.not_lt.2 hk), if_pos h]
  rfl

section
variable (hk : k ≤ 7) (h : (s.carousel k).state = .yielded)
include hk h

theorem reclaim_foreign (hf : ∃ n, (s.carousel k).lastCommander = some n ∧ n ≠ s.address) :
    reclaimAnswer k s = ⟨s, .foreignMaster, []⟩ := by
  rw [reclaimAnswer, if_neg (Nat.not_lt.2 hk), if_neg (not_not.2 h), if_pos ((State.foreignNode_isSome _).2 hf)]
  rfl

variable (hf : ¬∃ n, (s.carousel k).lastCommander = some n ∧ n ≠ s.address)
include hf

theorem reclaim_standing (hn : (s.carousel k).lastFault = none) :
    reclaimAnswer k s = ⟨s.enterStanding k, .done, []⟩ := by
  rw [reclaimAnswer, if_neg (Nat.not_lt.2 hk), if_neg (not_not.2 h), if_neg (mt (State.foreignNode_isSome _).1 hf), hn]

theorem reclaim_fault (hn : (s.carousel k).lastFault ≠ none) : reclaimAnswer k s =
    ⟨(s.onCarousel k (fun c => { c with state := .standing })).enterFault k .driveFault, .done, []⟩ := by
  obtain ⟨f, hf'⟩ := Option.ne_none_iff_exists'.1 hn
  rw [reclaimAnswer, if_neg (Nat.not_lt.2 hk), if_neg (not_not.2 h), if_neg (mt (State.foreignNode_isSome _).1 hf), hf']

end
end

/-- Settles O27: each command's refusals in order, then what it does. -/
theorem carouselServiceCommands : Obligations.CarouselServiceCommands := by
  refine ⟨fun s src k hs => ?service, fun s src k hs => ?clearing⟩
  case service =>
    intro c ready idle
    have hready : (c.state = .offline ∧ c.complete = true) ↔ ready := and_congr_right' c.complete_iff
    have hidle : (c.state.settled = true ∧ c.stops = [] ∧ (s.port k).work = .idle) ↔ idle :=
      and_congr_left' (CarouselState.settled_iff _)
    clear_value ready idle
    rw [exec_carouselOnline, exec_carouselOffline]
    refine ⟨fun h => ⟨command_of_answer hs (online_bad h), command_of_answer hs (offline_bad h)⟩, fun hk h => ?_,
      fun hk h => ?_, fun hk h => ?_, fun hk h => ?_⟩
    · exact command_of_answer hs (online_refused hk (mt hready.1 h))
    · exact command_of_answer hs (online_good hk (hready.2 h))
    · exact command_of_answer hs (offline_refused hk (mt hidle.1 h))
    · exact command_of_answer hs (offline_good hk (hidle.2 h))
  case clearing =>
    intro c clearable foreign
    rw [exec_clearFault, exec_reclaim]
    refine ⟨fun h => ⟨command_of_answer hs (clearFault_bad h), command_of_answer hs (reclaim_bad h)⟩, fun hk h => ?_,
      fun hk h => ?_, fun hk h => ?_, fun hk h hf => ?_, fun hk h hf hn => ?_, fun hk h hf hn => ?_⟩
    · exact command_of_answer hs (clearFault_refused hk h)
    · exact command_of_answer hs (clearFault_good hk h)
    · exact command_of_answer hs (reclaim_refused hk h)
    · exact command_of_answer hs (reclaim_foreign hk h hf)
    · exact command_of_answer hs (reclaim_standing hk h hf hn)
    · exact command_of_answer hs (reclaim_fault hk h hf hn)

/-! ## JOG-REQUEST (R75, R61, R64) -/

theorem Port.isPresenting_iff (p : Port) : p.isPresenting = true ↔ ∃ x, p.work = .presenting x := by
  unfold Port.isPresenting; cases p.work <;> simp

section
variable {s : State} {k steps d : Nat} {dir : Direction}

theorem directionOf?_some (h : directionOf? d = some dir) : (dir = .forward ∧ d = 0) ∨ (dir = .backward ∧ d = 1) := by
  match d, h with
  | 0, h => exact .inl ⟨(Option.some.inj h).symm, rfl⟩
  | 1, h => exact .inr ⟨(Option.some.inj h).symm, rfl⟩

theorem jog_unnamed (h : directionOf? d = none) : jogAnswer k steps d s = ⟨s, .badArgument, []⟩ := by
  simp only [jogAnswer, h]; rfl

variable (hd : directionOf? d = some dir)
include hd

theorem jog_bad (h : ¬(k ≤ 7 ∧ 0 < steps ∧ steps < (s.carousel k).carriers
    ∧ (dir = .backward → (s.carousel k).bidirectional = true))) : jogAnswer k steps d s = ⟨s, .badArgument, []⟩ := by
  have hbad : 7 < k ∨ steps = 0 ∨ (s.carousel k).carriers ≤ steps
      ∨ (dir = .backward ∧ (s.carousel k).bidirectional = false) := by
    by_contra hgood
    simp only [not_or, not_and, Nat.not_lt, Nat.not_le, Bool.not_eq_false, ← Nat.pos_iff_ne_zero] at hgood
    exact h hgood
  simp only [jogAnswer, hd, hbad, if_true]
  rfl

variable (h : k ≤ 7 ∧ 0 < steps ∧ steps < (s.carousel k).carriers
    ∧ (dir = .backward → (s.carousel k).bidirectional = true))
include h

omit hd in
theorem jog_valid : ¬(7 < k ∨ steps = 0 ∨ (s.carousel k).carriers ≤ steps
    ∨ (dir = .backward ∧ (s.carousel k).bidirectional = false)) := by
  simp only [not_or, not_and, Nat.not_lt, Nat.not_le, Bool.not_eq_false, ← ne_eq, ← Nat.pos_iff_ne_zero]
  exact h

theorem jog_notPermitted (hserv : s.serviceHigh = false) : jogAnswer k steps d s = ⟨s, .notPermitted, []⟩ := by
  simp only [jogAnswer, hd, jog_valid h, if_false, hserv, if_true]
  rfl

theorem jog_refused (hserv : s.serviceHigh = true)
    (hfree : ¬((s.carousel k).state = .standing ∧ (s.carousel k).curtainBroken = false
      ∧ (s.port k).isPresenting = false ∧ (s.port k).isPlacing = false)) :
    jogAnswer k steps d s = ⟨s, .refusedState, []⟩ := by
  have hbusy : (s.carousel k).state ≠ .standing ∨ (s.carousel k).curtainBroken = true
      ∨ (s.port k).isPresenting = true ∨ (s.port k).isPlacing = true := by
    simpa only [not_and_or, Bool.not_eq_false] using hfree
  simp only [jogAnswer, hd, jog_valid h, if_false, hserv, hbusy, if_true, Bool.true_eq_false]
  rfl

theorem jog_good (hserv : s.serviceHigh = true) (hstate : (s.carousel k).state = .standing)
    (hcurtain : (s.carousel k).curtainBroken = false) (hp : (s.port k).isPresenting = false)
    (hq : (s.port k).isPlacing = false) :
    jogAnswer k steps d s = ⟨s.startLeg k .jog ((s.carousel k).carrierAt dir steps) ⟨dir, steps⟩, .done, []⟩ := by
  have hmove : s.moveRequest k .jog ((s.carousel k).carrierAt dir steps) ⟨dir, steps⟩ =
      s.startLeg k .jog ((s.carousel k).carrierAt dir steps) ⟨dir, steps⟩ := by
    simp only [State.moveRequest, hstate, hcurtain, Bool.false_eq_true, if_false]
  simp only [jogAnswer, hd, jog_valid h, if_false, hserv, hstate, hcurtain, hp, hq, Bool.true_eq_false, ne_eq,
    not_true, or_self, Bool.false_eq_true, hmove]

end

/-! ## REPLAN-CAROUSEL (R76) -/

theorem oncePairs_nodup (xs : List (Nat × Nat)) : (oncePairs xs).Nodup := (foldl_keepNew xs [] List.nodup_nil).1

theorem mem_oncePairs {xs : List (Nat × Nat)} {y : Nat × Nat} : y ∈ oncePairs xs ↔ y ∈ xs := by
  have h := (foldl_keepNew xs [] List.nodup_nil).2.1 y
  rwa [or_iff_right (List.not_mem_nil)] at h

theorem oncePairs_sublist (xs : List (Nat × Nat)) : (oncePairs xs).Sublist xs :=
  (foldl_keepNew xs [] List.nodup_nil).2.2

theorem stopTasks_eq (k : Nat) (stops : List Stop) : stopTasks k stops =
    (stops.flatMap (fun x => x.tasks.map (fun t => (x.carrier, t)))).map
      (fun e => (k * 768 + e.1 * 8 + e.2.position, e.2.order, e.2.line)) := by
  simp only [stopTasks, List.map_flatMap, List.map_map]
  rfl

section
variable {s : State} {k : Nat}

theorem replanCarousel_bad (h : 7 < k) : replanCarouselAnswer k s = ⟨s, .badArgument, []⟩ := if_pos h

theorem replanCarousel_refused (hk : k ≤ 7) (h : ¬((s.carousel k).state.settled = true
    ∧ ¬((s.port k).isPresenting = true ∧ (s.port k).mode = .pick))) :
    replanCarouselAnswer k s = ⟨s, .refusedState, []⟩ := by
  rw [replanCarouselAnswer, if_neg (Nat.not_lt.2 hk), if_pos (by rwa [not_and_or, not_not, Bool.not_eq_true] at h)]
  rfl

theorem replanCarousel_good (hk : k ≤ 7) (h : (s.carousel k).state.settled = true
    ∧ ¬((s.port k).isPresenting = true ∧ (s.port k).mode = .pick)) : replanCarouselAnswer k s =
      ⟨s.releaseStops k, .done, be2 (stopTasks k (s.carousel k).stops).length⟩ := by
  rw [replanCarouselAnswer, if_neg (Nat.not_lt.2 hk), if_neg (by rw [h.1]; simpa using h.2)]

theorem excludedCarousel_settled {x : CarouselState} (h : x.settled = true) :
    excludedCarousel k x = if x = .standing then none else some k := by
  cases x <;> first | rfl | cases h

end

/-- Settles O28: a jog's refusals in order and the jog, then a replan's refusals, its releases and its marks. -/
theorem jogAndReplanReachTheCarousel : Obligations.JogAndReplanReachTheCarousel := by
  refine ⟨fun s src k steps d hs => ?jog, fun s src k hs => ?replan⟩
  case jog =>
    intro c valid free
    have hfree : (c.state = .standing ∧ c.curtainBroken = false
        ∧ (s.port k).isPresenting = false ∧ (s.port k).isPlacing = false) ↔ free := by
      rw [← Bool.not_eq_true (s.port k).isPresenting, ← Bool.not_eq_true (s.port k).isPlacing, Port.isPresenting_iff,
        Port.isPlacing_iff, not_exists, not_exists]
    have hvalid : ∀ {dir}, directionOf? d = some dir → (valid ↔ k ≤ 7 ∧ 0 < steps ∧ steps < c.carriers
        ∧ (dir = .backward → c.bidirectional = true)) := by
      intro dir hd
      obtain ⟨rfl, rfl⟩ | ⟨rfl, rfl⟩ := directionOf?_some hd <;> simp [valid]
    have hdir : valid → directionOf? d = some (if d = 0 then .forward else .backward) := by
      rintro ⟨-, -, -, rfl | ⟨rfl, -⟩⟩ <;> rfl
    clear_value valid free
    rw [exec_jogRequest]
    refine ⟨fun h => ?_, fun h hserv => ?_, fun h hserv hf => ?_, fun h hserv hf => ?_⟩
    · cases hd : directionOf? d with
      | none => exact command_of_answer hs (jog_unnamed hd)
      | some dir => exact command_of_answer hs (jog_bad hd (mt (hvalid hd).2 h))
    · exact command_of_answer hs (jog_notPermitted (hdir h) ((hvalid (hdir h)).1 h) hserv)
    · exact command_of_answer hs (jog_refused (hdir h) ((hvalid (hdir h)).1 h) hserv (mt hfree.1 hf))
    · intro leg target
      obtain ⟨hstate, hcurtain, hp, hq⟩ := hfree.2 hf
      have htarget : c.carrierAt (if d = 0 then .forward else .backward) steps = target := by
        show _ = if d = 0 then _ else _
        split <;> rfl
      have hanswer := jog_good (hdir h) ((hvalid (hdir h)).1 h) hserv hstate hcurtain hp hq
      rw [htarget] at hanswer
      exact command_of_answer hs hanswer
  case replan =>
    intro c free tasks lines
    have hfree : (c.state.settled = true ∧ ¬((s.port k).isPresenting = true ∧ (s.port k).mode = .pick)) ↔ free := by
      rw [Port.isPresenting_iff, CarouselState.settled_iff]
    have htasks : stopTasks k c.stops = tasks.map (fun e => (k * 768 + e.1 * 8 + e.2.position, e.2.order, e.2.line)) :=
      stopTasks_eq k c.stops
    rw [exec_replanCarousel]
    refine ⟨fun h => command_of_answer hs (replanCarousel_bad h), fun hk h => ?_, fun hk h => ?_⟩
    · exact command_of_answer hs (replanCarousel_refused hk (mt hfree.1 h))
    · have hlines : (stopTasks k c.stops).map (fun t => t.2) = lines := by
        rw [htasks, List.map_map]; rfl
      refine ⟨oncePairs lines, oncePairs_nodup _, fun _ => mem_oncePairs, oncePairs_sublist _, ?_⟩
      have hanswer := replanCarousel_good hk (hfree.2 h)
      have hreleased : s.releaseStops k = (oncePairs lines).foldl
          (fun t x => t.markLine x.1 x.2 (if c.state = .standing then none else some k))
          (tasks.foldl (fun t e => t.tryRelease (k * 768 + e.1 * 8 + e.2.position) e.2.order e.2.line) s) := by
        rw [← hlines, ← excludedCarousel_settled (hfree.2 h).1]
        show List.foldl _ (List.foldl _ s (stopTasks k c.stops)) _ = _
        rw [htasks, List.foldl_map]
      have hlength : (stopTasks k (s.carousel k).stops).length = tasks.length := by
        show (stopTasks k c.stops).length = _
        rw [htasks, List.length_map]
      rw [hreleased, hlength] at hanswer
      exact command_of_answer hs hanswer

end Sys2Proof.Machine

/-! # The family of banks and load sessions -/

namespace Sys2Proof.Machine

/-! ## BANK-COPY and BANK-SWITCH (R152, R159) -/

theorem Bank.allValid_iff (b : Bank) :
    b.allValid = true ↔ b.trafficValid = true ∧ b.articleValid = true ∧ b.profileValid = true := by
  simp only [Bank.allValid, Bool.and_eq_true, and_assoc]

theorem Bank.invalidCodes_eq (b : Bank) : b.invalidCodes = (if b.trafficValid then [] else [0])
    ++ (if b.articleValid then [] else [1]) ++ (if b.profileValid then [] else [2]) := by
  obtain ⟨_, _, _, tv, av, pv⟩ := b
  cases tv <;> cases av <;> cases pv <;> rfl

theorem State.setShadowBank_a {s : State} (h : s.policy.active = .a) (x : Bank) :
    s.setShadowBank x = { s with policy := { s.policy with bankB := x } } := by
  unfold State.setShadowBank; rw [h]

theorem State.setShadowBank_b {s : State} (h : s.policy.active = .b) (x : Bank) :
    s.setShadowBank x = { s with policy := { s.policy with bankA := x } } := by
  unfold State.setShadowBank; rw [h]

theorem State.activeBank_a {s : State} (h : s.policy.active = .a) : s.activeBank = s.policy.bankA := by
  unfold State.activeBank; rw [h]

theorem State.activeBank_b {s : State} (h : s.policy.active = .b) : s.activeBank = s.policy.bankB := by
  unfold State.activeBank; rw [h]

section
variable {s : State}

theorem bankCopy_busy (h : s.policy.session ≠ none) : bankCopyAnswer s = ⟨s, .refusedState, []⟩ := by
  obtain ⟨x, hx⟩ := Option.ne_none_iff_exists'.1 h
  simp only [bankCopyAnswer, hx]; rfl

theorem bankSwitch_busy (h : s.policy.session ≠ none) : bankSwitchAnswer s = ⟨s, .refusedState, []⟩ := by
  obtain ⟨x, hx⟩ := Option.ne_none_iff_exists'.1 h
  simp only [bankSwitchAnswer, hx]; rfl

variable (h : s.policy.session = none)
include h

theorem bankCopy_free : bankCopyAnswer s = ⟨s.setShadowBank { s.activeBank with
    trafficValid := true, articleValid := true, profileValid := true }, .done, []⟩ := by
  simp only [bankCopyAnswer, h]

theorem bankSwitch_invalid (hv : ¬s.shadowBank.allValid = true) :
    bankSwitchAnswer s = ⟨s, .refusedState, s.shadowBank.invalidCodes⟩ := by
  simp only [bankSwitchAnswer, h, hv, Bool.not_false, if_true]

theorem bankSwitch_valid (hv : s.shadowBank.allValid = true) : bankSwitchAnswer s =
    ⟨({ s with policy := { s.policy with active := s.policy.active.other } } : State).notify
      (.bankSwitched s.policy.active.other s.shadowBank.articles.length), .done, []⟩ := by
  simp only [bankSwitchAnswer, h, hv, Bool.not_true, Bool.false_eq_true, if_false]

end

theorem BankName.other_eq (x : BankName) : x.other = if x = .a then .b else .a := by cases x <;> rfl

/-- Settles O32. -/
theorem banksAreCopiedAndSwitched : Obligations.BanksAreCopiedAndSwitched := by
  intro s src hs
  rw [exec_bankCopy, exec_bankSwitch]
  refine ⟨fun h => ⟨command_of_answer hs (bankCopy_busy h), command_of_answer hs (bankSwitch_busy h)⟩, fun h ha => ?copyA,
    fun h ha => ?copyB, fun x h hx hv => ?invalid, fun x h hx h1 h2 h3 => ?valid⟩
  case copyA =>
    have hanswer := bankCopy_free h
    rw [State.setShadowBank_a ha, State.activeBank_a ha] at hanswer
    exact command_of_answer hs hanswer
  case copyB =>
    have hanswer := bankCopy_free h
    rw [State.setShadowBank_b ha, State.activeBank_b ha] at hanswer
    exact command_of_answer hs hanswer
  case invalid =>
    subst hx
    have hanswer := bankSwitch_invalid h (mt (Bank.allValid_iff _).1 hv)
    rw [Bank.invalidCodes_eq] at hanswer
    exact command_of_answer hs hanswer
  case valid =>
    subst hx
    have hanswer := bankSwitch_valid h ((Bank.allValid_iff _).2 ⟨h1, h2, h3⟩)
    rw [BankName.other_eq] at hanswer
    exact command_of_answer hs hanswer

/-! ## LOAD-OPEN (R153) -/

theorem tableOf?_eq {t : Nat} (h : t ≤ 2) :
    tableOf? t = some (if t = 0 then .traffic else if t = 1 then .article else .profile) := by
  interval_cases t <;> rfl

theorem loadModeOf?_eq {m : Nat} (h : m ≤ 1) : loadModeOf? m = some (if m = 0 then .replace else .merge) := by
  interval_cases m <;> rfl

theorem loadModeOf?_none {m : Nat} (h : 1 < m) : loadModeOf? m = none := by
  match m, h with
  | _ + 2, _ => rfl

theorem loadOpen_bad {t m : Nat} (h : 2 < t ∨ 1 < m) (src : Nat) (s : State) :
    loadOpenAnswer src t m s = ⟨s, .badArgument, []⟩ := by
  unfold loadOpenAnswer
  obtain h | h := h
  · rw [tableOf?_none h]; rfl
  · rw [loadModeOf?_none h]; cases tableOf? t <;> rfl

section
variable {s : State} {src t m : Nat}

theorem loadOpen_busy (ht : t ≤ 2) (hm : m ≤ 1) (h : s.policy.session ≠ none) : loadOpenAnswer src t m s = ⟨s, .refusedState, []⟩ := by
  obtain ⟨x, hx⟩ := Option.ne_none_iff_exists'.1 h
  simp only [loadOpenAnswer, tableOf?_eq ht, loadModeOf?_eq hm, hx]
  rfl

theorem loadOpen_good (h : s.policy.session = none) {table : TableName} {mode : LoadMode}
    (htable : tableOf? t = some table) (hmode : loadModeOf? m = some mode) : loadOpenAnswer src t m s =
      ⟨(s.setShadowBank (s.shadowBank.opened table mode)).setSession
        (some ⟨table, mode, src, 0xFFFFFFFF#32, false, 0, 10000⟩), .done, be1 s.policy.active.other.code⟩ := by
  simp only [loadOpenAnswer, htable, hmode, h]
  rfl

/-- The table the session opens on, by its number: INVALID, and under REPLACE empty. -/
theorem Bank.opened_eq (ht : t ≤ 2) (hm : m ≤ 1) (b : Bank) :
    b.opened (if t = 0 then .traffic else if t = 1 then .article else .profile) (if m = 0 then .replace else .merge) =
      ⟨if t = 0 ∧ m = 0 then [] else b.traffic, if t = 1 ∧ m = 0 then [] else b.articles,
        if t = 2 ∧ m = 0 then [] else b.profiles, if t = 0 then false else b.trafficValid,
        if t = 1 then false else b.articleValid, if t = 2 then false else b.profileValid⟩ := by
  interval_cases t <;> interval_cases m <;> rfl

end

/-! ## LOAD-CLOSE and the session timer (R157, R158) -/

theorem Bank.setValid_true (b : Bank) (t : TableName) : b.setValid true t = { b with
    trafficValid := if t = .traffic then true else b.trafficValid,
    articleValid := if t = .article then true else b.articleValid,
    profileValid := if t = .profile then true else b.profileValid } := by
  cases t <;> rfl

section
variable {s : State} {src : Nat} {e : BitVec 32}

theorem loadClose_none (h : s.policy.session = none) : loadCloseAnswer src e s = ⟨s, .refusedState, []⟩ := by
  simp only [loadCloseAnswer, h]; rfl

variable {x : Session} (h : s.policy.session = some x)
include h

theorem loadClose_notPermitted (ho : src ≠ x.owner) : loadCloseAnswer src e s = ⟨s, .notPermitted, []⟩ := by
  simp only [loadCloseAnswer, h, if_pos ho]; rfl

theorem loadClose_owner (ho : src = x.owner) : loadCloseAnswer src e s =
    ⟨if x.closeStatus e = .done then (s.setSession none).setShadowBank (s.shadowBank.setValid true x.table)
      else s.setSession none, x.closeStatus e, be4 x.check.toNat ++ be2 x.count⟩ := by
  simp only [loadCloseAnswer, h, ho, ne_eq, not_true, if_false]

theorem State.sessionExpiry_aborts :
    s.sessionExpiry = (s.setSession none).notify (.loadAborted x.table x.mode x.owner x.count x.failed) := by
  simp only [State.sessionExpiry, h]

end

theorem State.sessionExpiry_none {s : State} (h : s.policy.session = none) : s.sessionExpiry = s := by
  simp only [State.sessionExpiry, h]

/-- Settles O33: the refusals in order, the session that opens, the outcomes of a close, and the expiry. -/
theorem loadSessionsOpenAndEnd : Obligations.LoadSessionsOpenAndEnd := by
  refine ⟨fun s src hs => ?commands, fun s hs => ⟨fun x h => ?aborted, fun h => ?noSession⟩⟩
  case commands =>
    refine ⟨fun t m h => ?bad, fun t m ht hm h => ?busy, fun t m ht hm h => ?opens, fun e h => ?closeNone,
      fun e x h ho => ?notOwner, fun e x h ho => ?closes⟩
    case bad =>
      rw [exec_loadOpen]
      exact command_of_answer hs (loadOpen_bad h src s)
    case busy =>
      rw [exec_loadOpen]
      exact command_of_answer hs (loadOpen_busy ht hm h)
    case opens =>
      intro table b opened
      have hanswer := loadOpen_good (src := src) h (tableOf?_eq ht) (loadModeOf?_eq hm)
      have hcode : s.policy.active.other.code = if s.policy.active = .a then 1 else 0 := by
        cases s.policy.active <;> rfl
      rw [Bank.opened_eq ht hm, hcode] at hanswer
      rw [exec_loadOpen]
      exact command_of_answer hs hanswer
    case closeNone =>
      rw [exec_loadClose]
      exact command_of_answer hs (loadClose_none h)
    case notOwner =>
      rw [exec_loadClose]
      exact command_of_answer hs (loadClose_notPermitted h ho)
    case closes =>
      intro data ended b valid
      have hanswer : ∀ st u, x.closeStatus e = st → (if st = .done then ended.setShadowBank valid else ended) = u →
          exec (.loadClose src e) s = .next (State.finish s (u.placeReply src 22 st data)) := by
        rintro st u rfl rfl
        have hclose := loadClose_owner (e := e) h ho
        rw [Bank.setValid_true] at hclose
        rw [exec_loadClose]
        exact command_of_answer hs hclose
      clear_value ended valid
      refine ⟨fun hf => hanswer .noSpace ended ?_ rfl, fun hf he => hanswer .badCheck ended ?_ rfl,
        fun hf he => hanswer .done _ ?_ rfl⟩
      · simp only [Session.closeStatus, hf, if_true]
      · simp only [Session.closeStatus, hf, Bool.false_eq_true, if_false, ne_eq, he, not_false_iff, if_true]
      · simp only [Session.closeStatus, hf, Bool.false_eq_true, if_false, ne_eq, he, not_true]
  case aborted =>
    have htake : (s.take .sessionTimerExpiry).policy.session = some x := h
    rw [exec_sessionTimerExpiry, event_eq hs, State.sessionExpiry_aborts htake]
    rfl
  case noSession =>
    have htake : (s.take .sessionTimerExpiry).policy.session = none := h
    rw [exec_sessionTimerExpiry, event_eq hs, State.sessionExpiry_none htake]

/-! ## LOAD-RECORD (R155, R156) -/

section
variable {s : State} {src n : Nat} {bytes : List Byte}

theorem loadRecord_none (h : s.policy.session = none) : loadRecordAnswer src n bytes s = ⟨s, .refusedState, []⟩ := by
  simp only [loadRecordAnswer, h]; rfl

variable {x : Session} (h : s.policy.session = some x)
include h

theorem loadRecord_notPermitted (ho : src ≠ x.owner) : loadRecordAnswer src n bytes s = ⟨s, .notPermitted, []⟩ := by
  simp only [loadRecordAnswer, h, if_pos ho]; rfl

theorem loadRecord_bad (ho : src = x.owner) (hb : n = 0 ∨ 4 < n ∨ readRecords x.table n bytes = none) :
    loadRecordAnswer src n bytes s = ⟨s.setSession (some { x with timer := 10000 }), .badArgument, []⟩ := by
  have hread : (if n = 0 ∨ 4 < n then none else readRecords x.table n bytes) = none := by
    split
    · rfl
    · rename_i hn; tauto
  simp only [loadRecordAnswer, h, ho, ne_eq, not_true, if_false, hread]
  rfl

theorem loadRecord_good (ho : src = x.owner) (h1 : 1 ≤ n) (h4 : n ≤ 4) {items : List (List Byte × LoadItem)}
    (hi : readRecords x.table n bytes = some items) {l : Loading}
    (hl : items.foldl Loading.take ⟨s.shadowBank, { x with timer := 10000 }, 0, false⟩ = l) :
    loadRecordAnswer src n bytes s =
      ⟨(s.setShadowBank l.bank).setSession (some l.session),
        if l.session.failed then .noSpace else if l.clamped then .clamped else .done,
        be1 l.applied ++ be2 l.session.count ++ be4 l.session.check.toNat⟩ := by
  have hread : (if n = 0 ∨ 4 < n then none else readRecords x.table n bytes) = some items := by
    rw [if_neg (by omega), hi]
  subst hl
  simp only [loadRecordAnswer, h, ho, ne_eq, not_true, if_false, hread]
  rfl

end

section
variable (l : Loading) (raw : List Byte)

/-- The session with one record fed into its check and counted. -/
theorem Session.feed_eq (x : Session) : x.feed raw =
    { x with check := raw.foldl crcFeed32 x.check, count := min 65535 (x.count + 1) } := by
  simp only [Session.feed, crc32From, saturate_eq_min]

theorem Loading.take_failed (h : l.session.failed = true) (item : LoadItem) : l.take (raw, item) =
    { l with session := l.session.feed raw, clamped := l.clamped || item.isClamped } :=
  if_pos h

variable (h : l.session.failed = false)
include h

theorem Loading.take_applied {item : LoadItem} {b : Bank} (hb : l.bank.apply item = some b) :
    l.take (raw, item) = ⟨b, l.session.feed raw, l.applied + 1, l.clamped || item.isClamped⟩ := by
  have hfed : (l.session.feed raw).failed = false := h
  simp only [Loading.take, hfed, hb, Bool.false_eq_true, if_false]

theorem Loading.take_full {item : LoadItem} (hb : l.bank.apply item = none) : l.take (raw, item) =
    ⟨l.bank, { l.session.feed raw with failed := true }, l.applied, l.clamped || item.isClamped⟩ := by
  have hfed : (l.session.feed raw).failed = false := h
  simp only [Loading.take, hfed, hb, Bool.false_eq_true, if_false]

end

theorem Bank.apply_article (b : Bank) (code : Nat) (a : Article) : b.apply (.article code a) =
    if sparseFind code b.articles ≠ none ∨ b.articles.length < 1024 then
      some { b with articles := sparseInsert code a b.articles } else none := by
  simp only [Bank.apply, Bool.or_eq_true, Option.isSome_iff_ne_none, decide_eq_true_eq]

/-! ## Records read from their bytes (10, Load records) -/

theorem readProfile_eq (id window age : Nat) (u c : Bool) (st d : Nat) : readProfile id window age u c st d =
    if id ≤ 15 ∧ st ≤ 1 ∧ d ≤ 1 then
      some (.profile id ⟨min window 104, min age 520, u, c, if st = 0 then .nearest else .grouped, d == 1⟩
        (104 < window || 520 < age)) else none := by
  simp only [readProfile, clamp_eq_max_min (Nat.zero_le _), Nat.zero_max]
  match st, d with
  | 0, 0 | 0, 1 | 1, 0 | 1, 1 => simp [strategyOf?, refuseAheadOf?]
  | 0, _ + 2 | 1, _ + 2 => exact (if_neg (by omega)).symm
  | _ + 2, d => exact (if_neg (by omega)).symm

/-- Settles O34: LOAD-RECORD's refusals in order, what each record does, and how each is read. -/
theorem loadRecordsAreTaken : Obligations.LoadRecordsAreTaken := by
  refine ⟨fun s src n bytes hs => ?command, fun l raw => ?take, fun t n bytes => ⟨rfl, rfl⟩, fun k d => ?traffic,
    fun a2 a1 a0 p z1 z0 => rfl, fun i w g1 g0 u c st d => readProfile_eq _ _ _ _ _ _ _⟩
  case command =>
    rw [exec_loadRecord]
    exact ⟨fun h => command_of_answer hs (loadRecord_none h),
      fun x h ho => command_of_answer hs (loadRecord_notPermitted h ho),
      fun x h ho => ⟨fun hb => command_of_answer hs (loadRecord_bad h ho hb),
        fun items h1 h4 hi => command_of_answer hs (loadRecord_good h ho h1 h4 hi rfl)⟩⟩
  case take =>
    intro fed
    have hfed : l.session.feed raw = fed := Session.feed_eq raw l.session
    clear_value fed
    subst hfed
    refine ⟨fun item h => Loading.take_failed l raw h item, fun h => ⟨fun k d => ?_, fun i p c => ?_,
      fun code a hroom => ?_, fun code a hnew hfull => ?_⟩⟩
    · rw [Loading.take_applied l raw h rfl, LoadItem.isClamped, Bool.or_false]
    · rw [Loading.take_applied l raw h rfl, LoadItem.isClamped]
    · rw [Loading.take_applied l raw h (by rw [Bank.apply_article, if_pos hroom]), LoadItem.isClamped, Bool.or_false]
    · rw [Loading.take_full l raw h (by rw [Bank.apply_article, if_neg (by simp [hnew]; omega)]), LoadItem.isClamped,
        Bool.or_false]
  case traffic =>
    show (if k.toNat < 64 then _ else _) = _
    simp only [Nat.lt_succ_iff]

end Sys2Proof.Machine

/-! # The family of slots: LOAD-SLOTS, the searches of the index, and writing a slot -/

namespace Sys2Proof.Machine

/-! ## The searches of the index (R6, R7) -/

/-- The first listed slot with a property is the lowest of all slots with it, where an empty slot has it not. -/
theorem State.find_slots_iff {s : State} (hr : sparseRising s.stock.slots = true) {P : Nat → Slot → Bool}
    (hP : ∀ i, P i {} = false) (i : Nat) :
    (s.stock.slots.find? (fun e => P e.1 e.2)).map (fun e => e.1) = some i ↔
      P i (s.slot i) = true ∧ ∀ j < i, P j (s.slot j) = false := by
  have listed : ∀ {j}, P j (s.slot j) = true → (j, s.slot j) ∈ s.stock.slots := fun {j} hj =>
    State.mem_of_slot fun he => by rw [he, hP] at hj; cases hj
  have lowest : ∀ {j}, (s.stock.slots.find? (fun e => P e.1 e.2)).map (fun e => e.1) = some j →
      P j (s.slot j) = true ∧ ∀ h < j, P h (s.slot h) = false := by
    intro j hj
    obtain ⟨⟨_, x⟩, hf, rfl⟩ := Option.map_eq_some_iff.1 hj
    rename_i j
    obtain ⟨hx, before, after, he, hb⟩ := List.find?_eq_some_iff_append.1 hf
    have hslot : s.slot j = x := State.slot_of_mem hr (by rw [he]; simp)
    refine ⟨by rw [hslot]; exact hx, fun h hlt => ?_⟩
    by_contra hne
    have hm := listed (by simpa using hne)
    have hsorted := sparseRising_pairwise hr
    rw [he] at hm hsorted
    obtain ⟨-, hafter, -⟩ := List.pairwise_append.1 hsorted
    rcases List.mem_append.1 hm with hm | hm
    · have hno := hb _ hm
      rw [Bool.not_eq_true'] at hno
      exact hne hno
    · rcases List.mem_cons.1 hm with hm | hm
      · exact absurd (congrArg Prod.fst hm) (Nat.ne_of_lt hlt)
      · exact absurd ((List.pairwise_cons.1 hafter).1 _ hm) (Nat.not_lt.2 (Nat.le_of_lt hlt))
  refine ⟨lowest, fun ⟨hi, hlow⟩ => ?_⟩
  cases hf : s.stock.slots.find? (fun e => P e.1 e.2) with
  | none => exact absurd hi (List.find?_eq_none.1 hf _ (listed hi))
  | some e =>
    obtain ⟨he, hmin⟩ := lowest (j := e.1) (by rw [hf]; rfl)
    rw [Option.map_some]
    rcases Nat.lt_trichotomy e.1 i with h | h | h
    · rw [hlow _ h] at he; cases he
    · rw [h]
    · rw [hmin _ h] at hi; cases hi

section
variable {s : State} (ht : TablesOk s)
include ht

theorem State.tagSlot_iff (tag i : Nat) : s.tagSlot tag = some i ↔
    (s.slot i).content.tag = some tag ∧ ∀ j < i, (s.slot j).content.tag ≠ some tag := by
  refine (State.find_slots_iff ht.slotsRising (P := fun _ x => x.content.tag = some tag) (fun _ => rfl) i).trans ?_
  simp only [decide_eq_true_eq, decide_eq_false_iff_not, ne_eq]

theorem State.tagElsewhere_iff (tag i j : Nat) : s.tagElsewhere tag i = some j ↔
    j ≠ i ∧ (s.slot j).content.tag = some tag ∧ ∀ h < j, h ≠ i → (s.slot h).content.tag ≠ some tag := by
  refine (State.find_slots_iff ht.slotsRising (P := fun h x => x.content.tag = some tag && h ≠ i) (fun _ => rfl) j).trans ?_
  simp only [Bool.and_eq_true, decide_eq_true_eq, Bool.and_eq_false_iff, decide_eq_false_iff_not, ne_eq, not_not]
  constructor
  · rintro ⟨⟨htag, hj⟩, hlow⟩
    exact ⟨hj, htag, fun h hlt hne => (hlow h hlt).resolve_right hne⟩
  · rintro ⟨hj, htag, hlow⟩
    exact ⟨⟨htag, hj⟩, fun h hlt => or_iff_not_imp_right.2 (hlow h hlt)⟩

end

theorem State.demandAllows_iff (s : State) (a : Nat) :
    s.demandAllows a = true ↔ a ∈ s.demandArticles ∨ s.demandArticles.length < 2048 := by
  rw [State.demandAllows, State.keyDemand, Bool.or_eq_true, List.contains_iff_mem, decide_eq_true_eq]

/-! ## Writing a slot (R5, R85) -/

theorem Port.servedCarrier_iff (p : Port) (c : Nat) : p.servedCarrier = some c ↔
    (∃ x, p.work = .presenting x ∧ x.carrier = c) ∨ p.work = .placing c := by
  unfold Port.servedCarrier
  cases p.work <;> simp

theorem State.writeSlot_frame (s : State) (i : Nat) (x : Slot) :
    s.setSlot i x = { s with stock := { s.stock with slots := (s.writeSlot i x).stock.slots } } := by
  unfold State.writeSlot
  split
  · rw [State.rebuild_stock]; rfl
  · rfl

/-! ## LOAD-SLOTS (R24) -/

section
variable {s : State} {r : SlotArg}

theorem loadContent_isNone : (loadContent r).isNone = true ↔ 3 < r.target := by
  unfold loadContent
  generalize r.target = target
  match target with
  | 0 | 1 | 2 | 3 => simp
  | _ + 4 => simp

theorem loadCarries_iff : loadCarries r = true ↔ r.target = 1 ∨ r.target = 2 := by
  simp only [loadCarries, Bool.or_eq_true, decide_eq_true_eq]

theorem articleInRange_iff (a : Nat) : articleInRange a = true ↔ 1 ≤ a ∧ a ≤ 1048575 := by
  simp only [articleInRange, Bool.and_eq_true, decide_eq_true_eq]

theorem Content.inWork_iff (x : Content) :
    x.inWork = true ↔ (∃ t, x = .inbound t) ∨ ∃ t o n, x = .reserved t o n := by
  cases x <;> simp [Content.inWork]

/-- A record's values are in range (R24, check 1). -/
theorem loadRecord_valid_iff : (!s.mapped r.slot || (loadContent r).isNone
      || (loadCarries r && (r.tag = 0 || !articleInRange r.article || !dateValid r.week r.year))) = true ↔
    ¬(s.mapped r.slot = true ∧ r.target ≤ 3 ∧ (r.target = 1 ∨ r.target = 2 → r.tag ≠ 0 ∧ 1 ≤ r.article
      ∧ r.article ≤ 1048575 ∧ 1 ≤ r.week ∧ r.week ≤ 53 ∧ r.year ≤ 99)) := by
  rw [← loadCarries_iff, ← Nat.not_lt, ← loadContent_isNone]
  have hrange : (r.tag ≠ 0 ∧ 1 ≤ r.article ∧ r.article ≤ 1048575 ∧ 1 ≤ r.week ∧ r.week ≤ 53 ∧ r.year ≤ 99) ↔
      r.tag ≠ 0 ∧ articleInRange r.article = true ∧ dateValid r.week r.year = true := by
    rw [articleInRange_iff, dateValid_iff]; tauto
  rw [hrange]
  simp only [Bool.or_eq_true, Bool.and_eq_true, Bool.not_eq_true', decide_eq_true_eq, ← Bool.not_eq_true]
  tauto

theorem State.loadSlot_refused (h : s.loadOutcome r ≠ .done) : s.loadSlot r = s := by
  unfold State.loadSlot
  split
  · exact absurd ‹_› h
  · exact absurd ‹_› h
  · rfl

theorem State.loadSlot_done {x : Content} (h : s.loadOutcome r = .done) (hx : loadContent r = some x)
    (hs : ∀ t, x ≠ .stored t) : s.loadSlot r = s.writeSlot r.slot ⟨x, true⟩ := by
  simp only [State.loadSlot, h, hx]
  cases x with
  | stored t => exact absurd rfl (hs t)
  | _ => rfl

theorem State.loadSlot_stored {t : Tyre} (h : s.loadOutcome r = .done) (hx : loadContent r = some (.stored t)) :
    s.loadSlot r = (s.writeSlot r.slot ⟨.stored t, true⟩).hand [.wakeUp t.article] := by
  simp only [State.loadSlot, h, hx]
  rfl

end

/-- Settles O30: LOAD-SLOTS and its records, the searches, and what writing a slot does. -/
theorem slotRecordsAreLoaded : Obligations.SlotRecordsAreLoaded := by
  refine ⟨⟨⟨fun s src rs hs => ⟨fun h => ?refused, fun h1 h4 => ?loaded⟩, fun _ => rfl, fun _ _ _ => rfl, ?record⟩,
    fun s ht => ⟨State.tagSlot_iff ht, State.tagElsewhere_iff ht, s.demandArticles, distinct_nodup _,
      State.mem_demandArticles ht.slotsRising, s.demandAllows_iff⟩⟩, ?written, ?mapped⟩
  case refused =>
    rw [exec_loadSlots]
    exact command_of_answer hs (if_pos h)
  case loaded =>
    rw [exec_loadSlots]
    exact command_of_answer hs (if_neg (by omega))
  case record =>
    intro s r carries tyre valid inWork taken full
    have hinvalid := loadRecord_valid_iff (s := s) (r := r)
    have hbusy : ((s.slot r.slot).content.inWork || (loadCarries r && (s.tagElsewhere r.tag r.slot).isSome)) = true ↔
        inWork ∨ taken := by
      rw [Bool.or_eq_true, Bool.and_eq_true, Content.inWork_iff, loadCarries_iff, Option.isSome_iff_ne_none]
    have hfull : (loadCarries r && !s.demandAllows r.article) = true ↔ full := by
      rw [Bool.and_eq_true, loadCarries_iff, Bool.not_eq_true']
    refine ⟨fun h => ?_, fun h hb => ?_, fun h hb hf => ?_, fun h hb hf => ?_, State.loadSlot_refused, fun h => ?_⟩
    · rw [State.loadOutcome, if_pos (hinvalid.2 h)]
    · rw [State.loadOutcome, if_neg (by rw [hinvalid, not_not]; exact h), if_pos (hbusy.2 hb)]
    · rw [State.loadOutcome, if_neg (by rw [hinvalid, not_not]; exact h), if_neg (mt hbusy.1 hb), if_pos (hfull.2 hf)]
    · rw [State.loadOutcome, if_neg (by rw [hinvalid, not_not]; exact h), if_neg (mt hbusy.1 hb),
        if_neg (mt hfull.1 hf)]
    · refine ⟨fun h0 => ?_, fun h1 => ?_, fun h2 => ?_, fun h3 => ?_⟩
      · exact State.loadSlot_done h (by simp only [loadContent, h0]) fun t => by simp
      · exact State.loadSlot_stored h (by simp only [loadContent, h1]; rfl)
      · exact State.loadSlot_done h (by simp only [loadContent, h2]; rfl) fun t => by simp
      · exact State.loadSlot_done h (by simp only [loadContent, h3]) fun t => by simp
  case written =>
    intro s i x t put serves
    have hput : put = s.setSlot i x := (State.writeSlot_frame s i x).symm
    have hserves : (s.port (slotCarousel i)).servedCarrier = some (slotCarrier i) ↔ serves :=
      Port.servedCarrier_iff _ _
    refine ⟨?_, fun j hj => ?_, fun h => ?_, fun h => ?_⟩
    · exact (State.writeSlot_read s i x i).trans (if_pos rfl)
    · exact (State.writeSlot_read s i x j).trans (if_neg hj)
    · rw [hput]; exact if_pos (hserves.2 h)
    · rw [hput]; exact if_neg (mt hserves.1 h)
  case mapped =>
    intro s i
    simp only [State.mapped, Bool.and_eq_true, decide_eq_true_eq, and_assoc]
    rfl

end Sys2Proof.Machine

/-!
# The family of the orders' binding and closing: O36, O37, O39

The Lane Unit answers an order by searches (a FREE lane, an open chain, the first waiting order by priority), so the
lemmas on the searches come first; a closing and a forced release are the model's compositions, named step by step.
-/

namespace Sys2Proof.Machine

/-! ## Sorting by a key, equals kept in order -/

section
variable {α : Type} (key : α → Nat)

theorem mem_insertBy {x y : α} {l : List α} : y ∈ insertBy key x l ↔ y = x ∨ y ∈ l := by
  induction l with
  | nil => simp [insertBy]
  | cons z rest ih =>
    rw [insertBy]
    split
    · rw [List.mem_cons]
    · rw [List.mem_cons, ih, List.mem_cons]; tauto

theorem insertBy_sorted (x : α) {l : List α} (h : l.Pairwise (fun a b => key a ≤ key b)) :
    (insertBy key x l).Pairwise (fun a b => key a ≤ key b) := by
  induction l with
  | nil => exact List.pairwise_singleton _ _
  | cons z rest ih =>
    obtain ⟨hz, hrest⟩ := List.pairwise_cons.1 h
    rw [insertBy]
    split
    next hlt => exact List.pairwise_cons.2 ⟨List.forall_mem_cons.2
      ⟨Nat.le_of_lt hlt, fun y hy => Nat.le_trans (Nat.le_of_lt hlt) (hz y hy)⟩, h⟩
    next hge =>
      refine List.pairwise_cons.2 ⟨fun y hy => ?_, ih hrest⟩
      rcases (mem_insertBy key).1 hy with rfl | hy
      · exact Nat.le_of_not_lt hge
      · exact hz y hy

theorem mem_foldl_insertBy {y : α} (xs acc : List α) :
    y ∈ xs.foldl (fun acc x => insertBy key x acc) acc ↔ y ∈ acc ∨ y ∈ xs := by
  induction xs generalizing acc with
  | nil => simp
  | cons x xs ih => rw [List.foldl_cons, ih, mem_insertBy, List.mem_cons]; tauto

theorem mem_sortBy {y : α} {xs : List α} : y ∈ sortBy key xs ↔ y ∈ xs := by
  rw [sortBy, mem_foldl_insertBy]; simp

theorem foldl_insertBy_sorted (xs : List α) {acc : List α} (h : acc.Pairwise (fun a b => key a ≤ key b)) :
    (xs.foldl (fun acc x => insertBy key x acc) acc).Pairwise (fun a b => key a ≤ key b) := by
  induction xs generalizing acc with
  | nil => exact h
  | cons x xs ih => exact ih (insertBy_sorted key x h)

variable {p : α → Bool}

theorem find_insertBy_first {x : α} {l : List α} (hx : p x = true) (h : ∀ y ∈ l, p y = true → key x < key y) :
    (insertBy key x l).find? p = some x := by
  induction l with
  | nil => exact List.find?_cons_of_pos hx
  | cons z rest ih =>
    rw [insertBy]
    split
    next => exact List.find?_cons_of_pos hx
    next hge =>
      have hz : ¬p z = true := fun hz => hge (h z List.mem_cons_self hz)
      rw [List.find?_cons_of_neg hz]
      exact ih fun y hy => h y (List.mem_cons_of_mem z hy)

theorem find_insertBy_keep {x o : α} {l : List α} (hs : l.Pairwise (fun a b => key a ≤ key b))
    (ho : l.find? p = some o) (h : p x = true → key o ≤ key x) : (insertBy key x l).find? p = some o := by
  induction l with
  | nil => cases ho
  | cons z rest ih =>
    obtain ⟨hz, hrest⟩ := List.pairwise_cons.1 hs
    have hzo : key z ≤ key o := by
      rcases List.mem_cons.1 (List.mem_of_find?_eq_some ho) with rfl | hm
      · exact Nat.le_refl _
      · exact hz o hm
    rw [insertBy]
    split
    next hlt =>
      have hx : ¬p x = true := fun hx => by have := h hx; omega
      rw [List.find?_cons_of_neg hx, ho]
    next =>
      by_cases hpz : p z = true
      · rwa [List.find?_cons_of_pos hpz] at ho ⊢
      · rw [List.find?_cons_of_neg hpz] at ho ⊢
        exact ih hrest ho

/-- The first of a sorted list that meets `p` is the earliest of the least key among those that do. -/
theorem find_sortBy {before after : List α} {o : α} (ho : p o = true)
    (hb : ∀ x ∈ before, p x = true → key o < key x) (ha : ∀ x ∈ after, p x = true → key o ≤ key x) :
    (sortBy key (before ++ o :: after)).find? p = some o := by
  have hkeep : ∀ (xs acc : List α), acc.Pairwise (fun a b => key a ≤ key b) → acc.find? p = some o →
      (∀ x ∈ xs, p x = true → key o ≤ key x) →
      (xs.foldl (fun acc x => insertBy key x acc) acc).find? p = some o := by
    intro xs
    induction xs with
    | nil => exact fun _ _ h _ => h
    | cons x xs ih =>
      intro acc hs h hx
      exact ih _ (insertBy_sorted key x hs) (find_insertBy_keep key hs h (hx x List.mem_cons_self))
        fun y hy => hx y (List.mem_cons_of_mem x hy)
  have hsorted := foldl_insertBy_sorted key before (List.Pairwise.nil (R := fun a b => key a ≤ key b))
  rw [sortBy, List.foldl_append, List.foldl_cons]
  refine hkeep after _ (insertBy_sorted key o hsorted) (find_insertBy_first key ho fun y hy => hb y ?_) ha
  rw [mem_foldl_insertBy] at hy
  exact hy.resolve_left List.not_mem_nil

end

/-! ## Searching the lanes -/

theorem find_laneNumbers (p : Nat → Bool) (j : Nat) :
    laneNumbers.find? p = some j ↔ j < 24 ∧ p j = true ∧ ∀ i < j, p i = false := by
  rw [laneNumbers, List.find?_range_eq_some]
  simp only [List.mem_range, Bool.not_eq_true']
  tauto

section
variable (s : State)

theorem State.freeLane_iff (j : Nat) :
    s.freeLane = some j ↔ j < 24 ∧ (s.lane j).state = .free ∧ ∀ i < j, (s.lane i).state ≠ .free := by
  rw [State.freeLane, find_laneNumbers]
  simp only [decide_eq_true_eq, decide_eq_false_iff_not, ne_eq]

theorem State.openChainLane_iff (h j : Nat) : s.openChainLane h = some j ↔
    j < 24 ∧ ((s.lane j).state ≠ .free ∧ (s.lane j).chain = h ∧ (s.lane j).closed = false)
      ∧ ∀ i < j, ¬((s.lane i).state ≠ .free ∧ (s.lane i).chain = h ∧ (s.lane i).closed = false) := by
  rw [State.openChainLane, find_laneNumbers]
  simp only [← Bool.not_eq_true, Bool.and_eq_true, decide_eq_true_eq, Bool.not_eq_true', and_assoc]

theorem State.openWaitingChain_iff (h : Nat) (w : WaitingChain) : s.openWaitingChain h = some w ↔
    (w.chain = h ∧ w.closed = false)
      ∧ ∃ first rest, s.lanes.waiting = first ++ w :: rest ∧ ∀ x ∈ first, ¬(x.chain = h ∧ x.closed = false) := by
  rw [State.openWaitingChain, List.find?_eq_some_iff_append]
  simp only [Bool.not_eq_true', ← Bool.not_eq_true, Bool.and_eq_true, decide_eq_true_eq]

/-! ## Binding (R104, R105) -/

variable {s} {id h t : Nat} {co : Bool}

theorem chainRefusal_tooLarge {q n : Nat} (h : 16 < q + t) : chainRefusal q n t = some .tooLarge := if_pos h

theorem chainRefusal_noSpace {q n : Nat} (hq : q + t ≤ 16) (hn : 8 ≤ n) : chainRefusal q n t = some .noSpace := by
  rw [chainRefusal, if_neg (Nat.not_lt.2 hq), if_pos hn]

theorem chainRefusal_none {q n : Nat} (hq : q + t ≤ 16) (hn : n < 8) : chainRefusal q n t = none := by
  rw [chainRefusal, if_neg (Nat.not_lt.2 hq), if_neg (Nat.not_le.2 hn)]

theorem State.bindOrder_chained (hh : h ≠ 0) : s.bindOrder id h t co = s.bindChained id h t co := if_neg hh

theorem State.bindChained_lane {j : Nat} (hj : s.openChainLane h = some j)
    (hr : chainRefusal (s.lane j).quantity (s.lane j).bound.length t = none) :
    s.bindChained id h t co = (s.onLane j (fun l => { l with
      bound := l.bound ++ [id], quantity := l.quantity + t, closed := !co }), .lane j) := by
  simp only [State.bindChained, hj, hr]

theorem State.bindChained_lane_refused {j : Nat} {st : Status} (hj : s.openChainLane h = some j)
    (hr : chainRefusal (s.lane j).quantity (s.lane j).bound.length t = some st) :
    s.bindChained id h t co = (s, .refused st) := by
  simp only [State.bindChained, hj, hr]

theorem State.bindChained_waiting {w : WaitingChain} (hj : s.openChainLane h = none)
    (hw : s.openWaitingChain h = some w) (hr : chainRefusal w.quantity w.members.length t = none) :
    s.bindChained id h t co = (s.onOpenWaiting h (fun w => { w with
      members := w.members ++ [id], quantity := w.quantity + t, closed := !co }), .noLane) := by
  simp only [State.bindChained, hj, hw, hr]

theorem State.bindChained_waiting_refused {w : WaitingChain} {st : Status} (hj : s.openChainLane h = none)
    (hw : s.openWaitingChain h = some w) (hr : chainRefusal w.quantity w.members.length t = some st) :
    s.bindChained id h t co = (s, .refused st) := by
  simp only [State.bindChained, hj, hw, hr]

theorem State.bindChained_free {j : Nat} (hj : s.openChainLane h = none) (hw : s.openWaitingChain h = none)
    (hf : s.freeLane = some j) : s.bindChained id h t co = (s.bindLane j h (!co) [id] t, .lane j) := by
  simp only [State.bindChained, hj, hw, hf]

theorem State.bindChained_starts (hj : s.openChainLane h = none) (hw : s.openWaitingChain h = none)
    (hf : s.freeLane = none) :
    s.bindChained id h t co = (s.setWaiting (s.lanes.waiting ++ [⟨h, !co, [id], t⟩]), .noLane) := by
  simp only [State.bindChained, hj, hw, hf]

/-! ## The offer of a FREE lane (R106) -/

theorem State.intakeFirst_none {x : OrderState} (h : ∀ o ∈ s.planner.orders, o.state ≠ x) :
    s.intakeList.find? (fun o => o.state = x) = none := by
  refine List.find?_eq_none.2 fun o ho => ?_
  rw [State.intakeList, mem_sortBy, List.mem_filter] at ho
  rw [decide_eq_true_eq]
  exact h o ho.1

/-- The first order of the intake list in a state: by priority, then by acceptance (R30). -/
theorem State.intakeFirst_some {x : OrderState} (hx : x.waitsIntake = true) {before after : List Order} {o : Order}
    (hos : s.planner.orders = before ++ o :: after) (ho : o.state = x)
    (hb : ∀ y ∈ before, y.state = x → 3 - o.priority < 3 - y.priority)
    (ha : ∀ y ∈ after, y.state = x → 3 - o.priority ≤ 3 - y.priority) :
    s.intakeList.find? (fun o => o.state = x) = some o := by
  have hwaits : o.state.waitsIntake = true := by rw [ho]; exact hx
  rw [State.intakeList, hos, List.filter_append,
    List.filter_cons_of_pos (p := fun y : Order => y.state.waitsIntake) hwaits]
  exact find_sortBy _ (decide_eq_true ho) (fun y hy hw => hb y (List.mem_filter.1 hy).1 (of_decide_eq_true hw))
    (fun y hy hw => ha y (List.mem_filter.1 hy).1 (of_decide_eq_true hw))

theorem State.offerLane_none {j : Nat} (h : ∀ o ∈ s.planner.orders, o.state ≠ .laneWait) : s.offerLane j = s := by
  simp only [State.offerLane, State.intakeFirst_none h]

/-- The order that a FREE lane takes: the first LANE-WAIT order by priority, then by acceptance. -/
theorem State.offerLane_some {j : Nat} {before after : List Order} {o : Order}
    (hos : s.planner.orders = before ++ o :: after) (ho : o.state = .laneWait)
    (hb : ∀ x ∈ before, x.state = .laneWait → 3 - o.priority < 3 - x.priority)
    (ha : ∀ x ∈ after, x.state = .laneWait → 3 - o.priority ≤ 3 - x.priority) :
    s.offerLane j = (s.offerTo j o).takeUp := by
  simp only [State.offerLane, State.intakeFirst_some rfl hos ho hb ha]

theorem State.offerTo_alone {j : Nat} {o : Order} (h : ∀ w ∈ s.lanes.waiting, o.id ∉ w.members) :
    s.offerTo j o = (s.bindLane j 0 true [o.id] o.total).queueOrder j o.id := by
  have hnone : s.lanes.waiting.find? (fun w => w.members.contains o.id) = none :=
    List.find?_eq_none.2 fun w hw => by rw [List.contains_iff_mem]; exact h w hw
  simp only [State.offerTo, hnone]

theorem State.offerTo_chain {j : Nat} {o : Order} {first rest : List WaitingChain} {w : WaitingChain}
    (hw : s.lanes.waiting = first ++ w :: rest) (hm : o.id ∈ w.members)
    (hn : ∀ x ∈ first ++ rest, o.id ∉ x.members) :
    s.offerTo j o = w.members.foldl (fun t id => t.queueOrder j id)
      ((s.setWaiting (first ++ rest)).bindLane j w.chain w.closed w.members w.quantity) := by
  have hcontains : w.members.contains o.id = true := List.contains_iff_mem.2 hm
  have hfind : s.lanes.waiting.find? (fun w => w.members.contains o.id) = some w := by
    rw [hw, List.find?_eq_some_iff_append]
    refine ⟨hcontains, first, rest, rfl, fun x hx => ?_⟩
    rw [Bool.not_eq_true', ← Bool.not_eq_true, List.contains_iff_mem]
    exact hn x (List.mem_append_left rest hx)
  have hfilter : s.lanes.waiting.filter (fun x => !x.members.contains o.id) = first ++ rest := by
    rw [hw, List.filter_append, List.filter_cons_of_neg (by rw [hcontains]; decide), ← List.filter_append]
    refine List.filter_eq_self.2 fun x hx => ?_
    rw [Bool.not_eq_true', ← Bool.not_eq_true, List.contains_iff_mem]
    exact hn x hx
  simp only [State.offerTo, hfind, hfilter]

end

/-- Settles O36: the binding of an order by the searches' answers, the offer of a FREE lane, and the searches. -/
theorem ordersAreBoundToLanes : Obligations.OrdersAreBoundToLanes := by
  refine ⟨⟨fun s id h t co => ⟨fun j hj => ?unchained, fun hf => ?unlaned, fun hh => ⟨?inLane, ?inWaiting, ?starts⟩,
    s.freeLane_iff⟩, ?offered⟩, fun s h => ⟨s.openChainLane_iff h, s.openWaitingChain_iff h⟩⟩
  case unchained => simp only [State.bindOrder, if_true, State.bindUnchained, hj]; rfl
  case unlaned => simp only [State.bindOrder, if_true, State.bindUnchained, hf]
  case inLane =>
    intro j hj
    rw [State.bindOrder_chained hh]
    exact ⟨fun hq => State.bindChained_lane_refused hj (chainRefusal_tooLarge hq),
      fun hq hn => State.bindChained_lane_refused hj (chainRefusal_noSpace hq hn),
      fun hq hn => State.bindChained_lane hj (chainRefusal_none hq hn)⟩
  case inWaiting =>
    intro w hj hw
    rw [State.bindOrder_chained hh]
    exact ⟨fun hq => State.bindChained_waiting_refused hj hw (chainRefusal_tooLarge hq),
      fun hq hn => State.bindChained_waiting_refused hj hw (chainRefusal_noSpace hq hn),
      fun hq hn => State.bindChained_waiting hj hw (chainRefusal_none hq hn)⟩
  case starts =>
    intro hj hw
    rw [State.bindOrder_chained hh]
    exact ⟨fun j hf => State.bindChained_free hj hw hf, fun hf => State.bindChained_starts hj hw hf⟩
  case offered =>
    intro s j bound queued
    refine ⟨State.offerLane_none, fun before o after hos ho hb ha => ⟨fun hn => ?alone, ?chain⟩⟩
    case alone =>
      rw [State.offerLane_some hos ho hb ha, State.offerTo_alone hn]
      rfl
    case chain =>
      intro first w rest hw hm hn
      rw [State.offerLane_some hos ho hb ha, State.offerTo_chain hw hm hn]
      rfl

/-! ## Cancel and short close (R47, R48) -/

section
variable {s : State} {src id : Nat} {o : Order}

theorem State.closable_unknown (h : s.findOrder id = none) : s.closable src id = .error .noSuchRecord := by
  simp only [State.closable, h]

theorem State.closable_notPermitted (h : s.findOrder id = some o) (h0 : src ≠ 0) (hsrc : src ≠ o.source) :
    s.closable src id = .error .notPermitted := by
  simp only [State.closable, h]
  exact if_pos ⟨h0, hsrc⟩

theorem State.closable_finished (h : s.findOrder id = some o) (hsrc : src = 0 ∨ src = o.source)
    (hf : o.state.finished = true) : s.closable src id = .error .refusedState := by
  simp only [State.closable, h]
  rw [if_neg (by tauto), if_pos hf]

theorem State.closable_ok (h : s.findOrder id = some o) (hsrc : src = 0 ∨ src = o.source)
    (hf : ¬o.state.finished = true) : s.closable src id = .ok o := by
  simp only [State.closable, h]
  rw [if_neg (by tauto), if_neg hf]

/-- Both commands refuse what R47's checks refuse. -/
theorem exec_close_refused (hs : s.accepts) {st : Status} (ends : Bool) (h : s.closable src id = .error st) :
    exec (.orderCancel src id) s = .next (State.finish s (s.placeReply src 25 st []))
      ∧ exec (.shortClose src id ends) s = .next (State.finish s (s.placeReply src 26 st [])) := by
  have hcancel : cancelAnswer src id s = ⟨s, st, []⟩ := by simp only [cancelAnswer, h]; rfl
  have hclose : shortCloseAnswer src id ends s = ⟨s, st, []⟩ := by simp only [shortCloseAnswer, h]; rfl
  rw [exec_orderCancel, exec_shortClose]
  exact ⟨command_of_answer hs hcancel, command_of_answer hs hclose⟩

theorem exec_close_done (hs : s.accepts) (ends : Bool) (h : s.closable src id = .ok o) :
    exec (.orderCancel src id) s = .next (State.finish s
        ((s.closeOrder o .cancelled).placeReply src 25 .done o.closingData))
      ∧ exec (.shortClose src id ends) s = .next (State.finish s
        (((if ends then s.closeChain o else s).closeOrder o .shortClosed).placeReply src 26 .done o.closingData)) := by
  have hcancel : cancelAnswer src id s = ⟨s.closeOrder o .cancelled, .done, o.closingData⟩ := by
    simp only [cancelAnswer, h]
  have hclose : shortCloseAnswer src id ends s =
      ⟨(if ends then s.closeChain o else s).closeOrder o .shortClosed, .done, o.closingData⟩ := by
    simp only [shortCloseAnswer, h]
  rw [exec_orderCancel, exec_shortClose]
  exact ⟨command_of_answer hs hcancel, command_of_answer hs hclose⟩

end

/-! ## The closing of a chain and of an order (R17, R47, R107) -/

section
variable {s : State} {o : Order} {i id n : Nat}

theorem State.closeChain_lane_unchained {j : Nat} (hj : o.lane = some j) (hc : (s.lane j).chain = 0) :
    s.closeChain o = s := by
  simp only [State.closeChain, hj, hc, if_true]

theorem State.closeChain_lane {j : Nat} (hj : o.lane = some j) (hc : (s.lane j).chain ≠ 0) :
    s.closeChain o = (s.onLane j (fun l => { l with closed := true })).judgeLane j := by
  simp only [State.closeChain, hj, hc, if_false]

theorem State.closeChain_waiting (hj : o.lane = none) :
    s.closeChain o = s.setWaiting (s.lanes.waiting.map
      (fun w => if o.id ∈ w.members then { w with closed := true } else w)) := by
  simp only [State.closeChain, hj, List.contains_iff_mem]

theorem State.leaveWaiting_eq : s.leaveWaiting o = s.setWaiting ((s.lanes.waiting.map (fun w =>
    if o.id ∈ w.members then { w with
      members := w.members.filter (fun m => m ≠ o.id),
      quantity := w.quantity - (o.lines.map Line.quantity).sum } else w)).filter (fun w => w.members ≠ [])) := by
  have hempty : (fun w : WaitingChain => !w.members.isEmpty) = fun w => decide (w.members ≠ []) := by
    funext w
    cases w.members <;> simp
  simp only [State.leaveWaiting, List.contains_iff_mem, Order.total, hempty]

theorem State.tryRelease_reserved {t : Tyre} (h : (s.slot i).content = .reserved t id n) :
    s.tryRelease i id n = ((((s.writeSlot i ⟨.stored t, (s.slot i).fresh⟩).removeTask i).onLine id n (fun l => { l with
      members := l.members.filter (fun m => m.slot ≠ i) })).hand [.wakeUp t.article]) := by
  simp only [State.tryRelease, State.releaseSlot, h, and_self, if_true, Option.getD_some]
  rfl

theorem State.tryRelease_other (h : ∀ t, (s.slot i).content ≠ .reserved t id n) : s.tryRelease i id n = s := by
  unfold State.tryRelease State.releaseSlot
  split
  next t o m hc =>
    have hne : ¬(o = id ∧ m = n) := by
      rintro ⟨rfl, rfl⟩
      exact h t hc
    rw [if_neg hne, Option.getD_none]
  all_goals rfl

end

/-- Settles O37: the refusals and the closing of ORDER-CANCEL and SHORT-CLOSE, chains, releases. -/
theorem ordersAreClosed : Obligations.OrdersAreClosed := by
  refine ⟨⟨fun s src id ends hs => ⟨fun h => exec_close_refused hs ends (State.closable_unknown h), ?found⟩,
    fun s o => ⟨fun j => State.closeChain_lane_unchained, fun j => State.closeChain_lane, State.closeChain_waiting,
      State.leaveWaiting_eq, fun id => rfl⟩,
    fun s i o n => ⟨fun t => State.tryRelease_reserved, State.tryRelease_other⟩⟩, ?closing⟩
  case found =>
    intro o h finished data
    have hfinished : o.state.finished = true ↔ finished := o.state.finished_iff
    exact ⟨fun h0 hsrc => exec_close_refused hs ends (State.closable_notPermitted h h0 hsrc),
      fun hsrc hf => exec_close_refused hs ends (State.closable_finished h hsrc (hfinished.2 hf)),
      fun hsrc hf => exec_close_done hs ends (State.closable_ok h hsrc (mt hfinished.1 hf))⟩
  case closing =>
    intro s o x counted dropped released
    have hreleased : released = (((s.onOrder o.id (fun o => { o with lines := o.lines.map Line.closes })).stopPlanning
        o.id).releaseMembers o).setOrderState o.id x := rfl
    rw [hreleased]
    unfold State.closeOrder
    cases o.state <;> rfl

/-! ## LANE-RELEASE (R114) -/

section
variable {s : State} {j id : Nat} {force : Bool}

theorem State.forceClose_of {o : Order} (h : s.findOrder id = some o) (hf : o.state.finished = false) :
    s.forceClose id = s.closeOrder o .shortClosed := by
  simp only [State.forceClose, h, hf]
  rfl

theorem State.forceClose_same (h : ∀ o, s.findOrder id = some o → o.state.finished = true) : s.forceClose id = s := by
  unfold State.forceClose
  split
  next o ho => exact if_pos (h o ho)
  next => rfl

theorem State.mem_unfinishedOrders : id ∈ s.unfinishedOrders j ↔
    id ∈ (s.lane j).bound ∧ ∃ o, s.findOrder id = some o ∧ o.state.finished = false := by
  rw [State.unfinishedOrders, List.mem_filter]
  cases s.findOrder id <;> simp

theorem laneReleaseAnswer_refused (hj : j ≤ 23) (h : s.lanes.conveyor = none ∨ (s.lane j).state = .free
    ∨ (s.lane j).state = .opening ∨ ((s.lane j).state = .filling ∧ force = false)) :
    laneReleaseAnswer j force s = ⟨s, .refusedState, []⟩ := by
  rw [laneReleaseAnswer, if_neg (Nat.not_lt.2 hj)]
  split
  · rfl
  next hc =>
    rcases h with h | h | h | ⟨h, hforce⟩
    · exact absurd (by rw [h]; rfl) hc
    · rw [h]; rfl
    · rw [h]; rfl
    · rw [h, hforce]; rfl

theorem laneReleaseAnswer_ready (hj : j ≤ 23) (hc : s.lanes.conveyor ≠ none) (h : (s.lane j).state = .ready) :
    laneReleaseAnswer j force s = ⟨s.openLane j, .done, []⟩ := by
  rw [laneReleaseAnswer, if_neg (Nat.not_lt.2 hj), if_neg (by rwa [Option.isNone_iff_eq_none]), h]

theorem laneReleaseAnswer_force (hj : j ≤ 23) (hc : s.lanes.conveyor ≠ none) (h : (s.lane j).state = .filling) :
    laneReleaseAnswer j true s = ⟨s.forceRelease j, .done, be1 (s.unfinishedOrders j).length⟩ := by
  rw [laneReleaseAnswer, if_neg (Nat.not_lt.2 hj), if_neg (by rwa [Option.isNone_iff_eq_none]), h]
  rfl

end

/-- An order that is none of COMPLETE, CANCELLED and SHORT-CLOSED is not finished. -/
theorem OrderState.not_finished_iff (x : OrderState) :
    x.finished = false ↔ x ≠ .complete ∧ x ≠ .cancelled ∧ x ≠ .shortClosed := by
  rw [← Bool.not_eq_true, x.finished_iff]; tauto

/-- Settles O39: the refusals, a READY lane opened, and a FILLING one closed order by order and opened. -/
theorem lanesAreReleased : Obligations.LanesAreReleased := by
  intro s src j force hs c l opened
  refine ⟨fun hj => ?_, fun hj h => ?_, fun hj hc h => ?_, fun hj hc h hforce => ?_⟩
  · rw [exec_laneRelease]; exact command_of_answer hs (if_pos hj)
  · rw [exec_laneRelease]; exact command_of_answer hs (laneReleaseAnswer_refused hj h)
  · rw [exec_laneRelease]; exact command_of_answer hs (laneReleaseAnswer_ready hj hc h)
  · intro unfinished
    have hunfinished : ∀ t id, unfinished t id ↔ ∃ o, t.findOrder id = some o ∧ o.state.finished = false := by
      simp only [OrderState.not_finished_iff]
      exact fun _ _ => Iff.rfl
    refine ⟨s.unfinishedOrders j, State.forceClose, List.filter_sublist, fun id => ?_, fun t id o ho hu => ?_,
      fun t id hu => ?_, ?_⟩
    · rw [hunfinished]; exact State.mem_unfinishedOrders
    · obtain ⟨o', ho', hf⟩ := (hunfinished t id).1 hu
      rw [ho] at ho'
      cases ho'
      exact State.forceClose_of ho hf
    · refine State.forceClose_same fun o ho => ?_
      by_contra hf
      exact hu ((hunfinished t id).2 ⟨o, ho, Bool.eq_false_iff.2 hf⟩)
    · subst hforce
      rw [exec_laneRelease]
      exact command_of_answer hs (laneReleaseAnswer_force hj hc h)

end Sys2Proof.Machine

/-!
# The family of the restarts: O40

RESTART-OPS is one fold over the carousels per block. Each fold is described twice: by what it may change at all (an
existential frame, which the remaining clauses read off), and by what it leaves in one carousel's record.
-/

namespace Sys2Proof.Machine

/-! ## Folds over the carousels -/

/-- A fold over the first carousels that, at each, changes that carousel's reading alone. -/
theorem foldl_range_read {β : Type} {f : State → Nat → State} (read : State → Nat → β) (g : β → β)
    (hsame : ∀ s k, read (f s k) k = g (read s k)) (hother : ∀ s k j, j ≠ k → read (f s k) j = read s j)
    (s : State) (n j : Nat) :
    read ((List.range n).foldl f s) j = if j < n then g (read s j) else read s j := by
  induction n with
  | zero => rfl
  | succ n ih =>
    rw [List.range_succ, List.foldl_append, List.foldl_cons, List.foldl_nil]
    by_cases hj : j = n
    · subst hj
      rw [hsame, ih, if_neg (Nat.lt_irrefl j), if_pos (Nat.lt_succ_self j)]
    · rw [hother _ _ _ hj, ih]
      by_cases hlt : j < n
      · rw [if_pos hlt, if_pos (by omega)]
      · rw [if_neg hlt, if_neg (by omega)]

theorem foldl_carousels_read {β : Type} {f : State → Nat → State} (read : State → Nat → β) (g : β → β)
    (hsame : ∀ s k, read (f s k) k = g (read s k)) (hother : ∀ s k j, j ≠ k → read (f s k) j = read s j)
    (s : State) {j : Nat} (hj : j < 8) : read (carouselNumbers.foldl f s) j = g (read s j) :=
  (foldl_range_read read g hsame hother s 8 j).trans (if_pos hj)

/-! ## The Motion Units' part (R77) -/

theorem State.queueField_field_congr {s t : State} {x : FieldTarget} (c : FieldCommand)
    (hf : s.ring.field = t.ring.field) (hd : s.fieldDest x = t.fieldDest x) :
    (s.queueField x c).ring.field = (t.queueField x c).ring.field := by
  unfold State.queueField
  rw [hd]
  split
  · exact hf
  · show fieldJoin _ s.ring.field = fieldJoin _ t.ring.field
    rw [hf]

theorem State.queueField_carousel_read (s : State) (x : FieldTarget) (c : FieldCommand) (k : Nat) :
    (s.queueField x c).carousel k = s.carousel k := by rw [State.queueField_eq]; rfl

theorem State.restartMotion_read (s : State) (k j : Nat) :
    (s.restartMotion k).carousel j = if j = k then (s.carousel k).restarted else s.carousel j := by
  unfold State.restartMotion
  dsimp only
  split
  · rw [State.queueField_carousel_read, State.onCarousel_read]
  · rw [State.onCarousel_read]

theorem State.restartMotion_frame (s : State) (k : Nat) :
    ∃ m q, s.restartMotion k = { s with motion := m, ring := { s.ring with field := q } } := by
  unfold State.restartMotion
  dsimp only
  split
  · rw [State.queueField_eq]; exact ⟨_, _, rfl⟩
  · exact ⟨_, s.ring.field, rfl⟩

theorem foldl_restartMotion_frame (ks : List Nat) (s : State) :
    ∃ m q, ks.foldl State.restartMotion s = { s with motion := m, ring := { s.ring with field := q } } := by
  induction ks generalizing s with
  | nil => exact ⟨s.motion, s.ring.field, rfl⟩
  | cons k ks ih =>
    obtain ⟨m, q, h⟩ := s.restartMotion_frame k
    obtain ⟨m', q', h'⟩ := ih (s.restartMotion k)
    rw [List.foldl_cons, h', h]
    exact ⟨m', q', rfl⟩

/-- The STOPs of RESTART-OPS are those queued for the turning carousels on the state before it. -/
theorem foldl_restartMotion_field (s : State) {ks : List Nat} (hks : ks.Nodup) (a b : State)
    (hfield : a.ring.field = b.ring.field) (hdrive : ∀ k, (a.carousel k).drive = (b.carousel k).drive)
    (hstate : ∀ k ∈ ks, (a.carousel k).state = (s.carousel k).state) :
    (ks.foldl State.restartMotion a).ring.field
      = ((ks.filter (fun k => (s.carousel k).state.turning)).foldl
          (fun t k => t.queueField (.drive k) .stop) b).ring.field := by
  induction ks generalizing a b with
  | nil => exact hfield
  | cons k ks ih =>
    obtain ⟨hk, hks⟩ := List.nodup_cons.1 hks
    have hrest : ∀ j ∈ ks, ((a.restartMotion k).carousel j).state = (s.carousel j).state := by
      intro j hj
      rw [State.restartMotion_read, if_neg (fun h : j = k => hk (h ▸ hj))]
      exact hstate j (List.mem_cons_of_mem k hj)
    have hdrives : ∀ j, ((a.restartMotion k).carousel j).drive = (b.carousel j).drive := by
      intro j
      rw [State.restartMotion_read, ← hdrive j]
      split
      next h => rw [h]; rfl
      next => rfl
    have hturning : (a.carousel k).state.turning = (s.carousel k).state.turning := by
      rw [hstate k List.mem_cons_self]
    rw [List.foldl_cons]
    by_cases ht : (s.carousel k).state.turning = true
    · rw [List.filter_cons_of_pos (p := fun k => (s.carousel k).state.turning) ht, List.foldl_cons]
      refine ih hks _ _ ?_ (fun j => ?_) hrest
      · rw [State.restartMotion, if_pos (hturning.trans ht)]
        refine State.queueField_field_congr _ hfield ?_
        show ((a.onCarousel k Carousel.restarted).carousel k).drive = (b.carousel k).drive
        rw [State.onCarousel_same, ← hdrive k]
        rfl
      · rw [State.queueField_carousel_read]; exact hdrives j
    · rw [List.filter_cons_of_neg (p := fun k => (s.carousel k).state.turning) ht]
      refine ih hks _ _ ?_ hdrives hrest
      rw [State.restartMotion, if_neg (hturning ▸ ht)]
      exact hfield

/-! ## The ports' and the Audit Unit's parts (R100, R134) -/

theorem foldl_restartPort_frame (ks : List Nat) (s : State) :
    ∃ p, ks.foldl (fun t k => t.onPort k Port.restarted) s = { s with ports := p } := by
  induction ks generalizing s with
  | nil => exact ⟨s.ports, rfl⟩
  | cons k ks ih =>
    obtain ⟨p, h⟩ := ih (s.onPort k Port.restarted)
    rw [List.foldl_cons, h]
    exact ⟨p, rfl⟩

theorem State.enterLowest_frame (s : State) (k : Nat) :
    ∃ r, s.enterLowest k = { s with audit := { s.audit with records := r } } := by
  unfold State.enterLowest State.enterZone
  split <;> exact ⟨_, rfl⟩

theorem State.restartAudit_frame (s : State) (k : Nat) :
    ∃ r, s.restartAudit k = { s with audit := { s.audit with records := r } } := by
  unfold State.restartAudit
  dsimp only
  split
  · obtain ⟨r, h⟩ := (s.onAudit k (fun a => { a with streaks := [], counts := [], reports := 0 })).enterLowest_frame k
    rw [h]
    exact ⟨r, rfl⟩
  · exact ⟨_, rfl⟩

theorem foldl_restartAudit_frame (ks : List Nat) (s : State) :
    ∃ r, ks.foldl State.restartAudit s = { s with audit := { s.audit with records := r } } := by
  induction ks generalizing s with
  | nil => exact ⟨s.audit.records, rfl⟩
  | cons k ks ih =>
    obtain ⟨r, h⟩ := s.restartAudit_frame k
    obtain ⟨r', h'⟩ := ih (s.restartAudit k)
    rw [List.foldl_cons, h', h]
    exact ⟨r', rfl⟩

/-- An audit record after RESTART-OPS, its carousel's active zones given (R134). -/
def AuditRecord.restarted (a : AuditRecord) (zones : List Nat) : AuditRecord :=
  { a with streaks := [], counts := [], reports := 0, cursor := if a.mode = .zoneCycle then zones.head? else a.cursor }

/-- The active zones depend on the carousel's zone map and on the zones enabled. -/
theorem State.activeZones_congr {s t : State} {k : Nat}
    (hc : (s.carousel k).zoneCarriers = (t.carousel k).zoneCarriers)
    (he : (s.auditRecord k).enabled = (t.auditRecord k).enabled) : s.activeZones k = t.activeZones k := by
  have hactive : s.zoneActive k = t.zoneActive k := by
    funext z
    simp only [State.zoneActive, hc, he]
  rw [State.activeZones, hactive, State.activeZones]

theorem clearStreaks_nil (carriers : List Nat) : clearStreaks carriers [] = [] := by
  induction carriers with
  | nil => rfl
  | cons c carriers ih => exact ih

theorem State.restartAudit_same (s : State) (k : Nat) :
    (s.restartAudit k).auditRecord k = (s.auditRecord k).restarted (s.activeZones k) := by
  unfold State.restartAudit
  extract_lets t
  have hrecord : t.auditRecord k = { s.auditRecord k with streaks := [], counts := [], reports := 0 } :=
    State.onAudit_same s k _
  have hzones : t.activeZones k = s.activeZones k := State.activeZones_congr rfl (by rw [hrecord])
  clear_value t
  unfold AuditRecord.restarted
  rw [hrecord]
  dsimp only
  split
  · rw [State.enterLowest, hzones]
    cases (s.activeZones k).head? with
    | none => rw [State.enterZone, State.onAudit_same, hrecord]
    | some z => rw [State.enterZone_record, hrecord, clearStreaks_nil]; rfl
  · exact hrecord

theorem State.restartAudit_carousel (s : State) (k j : Nat) : (s.restartAudit k).carousel j = s.carousel j := by
  obtain ⟨r, h⟩ := s.restartAudit_frame k
  rw [h]
  rfl

theorem State.restartAudit_zones (s : State) (k : Nat) :
    (s.restartAudit k).activeZones k = s.activeZones k :=
  State.activeZones_congr (congrArg _ (s.restartAudit_carousel k k)) (by rw [s.restartAudit_same]; rfl)

theorem State.restartAudit_other (s : State) {k j : Nat} (h : j ≠ k) :
    (s.restartAudit k).auditRecord j = s.auditRecord j ∧ (s.restartAudit k).activeZones j = s.activeZones j := by
  have hrecord : (s.restartAudit k).auditRecord j = s.auditRecord j := by
    unfold State.restartAudit State.enterLowest State.enterZone
    dsimp only
    split
    · split <;> rw [State.onAudit_read, if_neg h, State.onAudit_read, if_neg h]
    · rw [State.onAudit_read, if_neg h]
  exact ⟨hrecord, State.activeZones_congr (congrArg _ (s.restartAudit_carousel k j)) (by rw [hrecord])⟩

/-! ## RESTART-OPS as one operation (R175) -/

/-- The ports' part of RESTART-OPS (R100). -/
def State.restartPorts (s : State) : State := carouselNumbers.foldl (fun t k => t.onPort k Port.restarted) s

/-- The Audit Unit's part of RESTART-OPS (R134). -/
def State.restartAudits (s : State) : State := carouselNumbers.foldl State.restartAudit s

theorem State.restartedOps_eq (s : State) :
    s.restartedOps = s.restartStock.restartMotions.restartPorts.restartLines.restartAudits := rfl

section
variable (s : State)

theorem State.restartMotions_frame :
    ∃ c q, s.restartMotions = { s with motion := ⟨c, 0⟩, ring := { s.ring with field := q } } := by
  obtain ⟨m, q, h⟩ := foldl_restartMotion_frame carouselNumbers s
  refine ⟨m.carousels, q, ?_⟩
  rw [State.restartMotions, h]

theorem State.restartMotions_carousel {k : Nat} (hk : k < 8) :
    s.restartMotions.carousel k = (s.carousel k).restarted := by
  have hread := foldl_carousels_read (f := State.restartMotion) State.carousel Carousel.restarted
    (fun t j => (t.restartMotion_read j j).trans (if_pos rfl))
    (fun t i j h => (t.restartMotion_read i j).trans (if_neg h)) s hk
  unfold State.restartMotions
  generalize carouselNumbers.foldl State.restartMotion s = t at hread ⊢
  exact hread

theorem State.restartMotions_field (t : State) (hfield : s.ring.field = t.ring.field)
    (hcarousel : ∀ k, s.carousel k = t.carousel k) : s.restartMotions.ring.field =
      ((carouselNumbers.filter (fun k => (t.carousel k).state.turning)).foldl
        (fun u k => u.queueField (.drive k) .stop) t).ring.field := by
  have hfold := foldl_restartMotion_field t (ks := carouselNumbers) List.nodup_range s t hfield
    (fun k => by rw [hcarousel]) (fun k _ => by rw [hcarousel])
  unfold State.restartMotions
  generalize carouselNumbers.foldl State.restartMotion s = u at hfold ⊢
  exact hfold

theorem State.restartPorts_frame : ∃ p, s.restartPorts = { s with ports := p } :=
  foldl_restartPort_frame carouselNumbers s

theorem State.restartPorts_port {k : Nat} (hk : k < 8) : s.restartPorts.port k = (s.port k).restarted := by
  have hread := foldl_carousels_read (f := fun t k => t.onPort k Port.restarted) State.port Port.restarted
    (fun t j => t.onPort_same j _) (fun t i j h => (t.onPort_read i _ j).trans (if_neg h)) s hk
  unfold State.restartPorts
  exact hread

theorem State.restartAudits_frame : ∃ r, s.restartAudits = { s with audit := { s.audit with records := r } } :=
  foldl_restartAudit_frame carouselNumbers s

theorem State.restartAudits_auditRecord {k : Nat} (hk : k < 8) :
    s.restartAudits.auditRecord k = (s.auditRecord k).restarted (s.activeZones k) := by
  have hread := foldl_carousels_read (f := State.restartAudit) (fun t j => (t.auditRecord j, t.activeZones j))
    (fun x => (x.1.restarted x.2, x.2))
    (fun t j => Prod.ext (t.restartAudit_same j) (t.restartAudit_zones j))
    (fun t i j h => Prod.ext (t.restartAudit_other h).1 (t.restartAudit_other h).2) s hk
  unfold State.restartAudits
  generalize carouselNumbers.foldl State.restartAudit s = t at hread ⊢
  exact congrArg Prod.fst hread

/-- What RESTART-OPS may change at all. -/
theorem State.restartedOps_frame : ∃ c p q r, s.restartedOps = { s.restartStock with
    motion := ⟨c, 0⟩, ports := p, ring := { s.ring with counters := {}, field := q },
    lanes := { s.lanes with lanes := [], waiting := [] },
    command := { s.command with intakeOverruns := 0, noticesLost := 0 },
    audit := { s.audit with records := r } } := by
  rw [State.restartedOps_eq]
  obtain ⟨c, q, hmotions⟩ := s.restartStock.restartMotions_frame
  obtain ⟨p, hports⟩ := s.restartStock.restartMotions.restartPorts_frame
  obtain ⟨r, haudits⟩ := s.restartStock.restartMotions.restartPorts.restartLines.restartAudits_frame
  rw [haudits, hports, hmotions]
  exact ⟨c, p, q, r, rfl⟩

theorem State.restartedOps_carousel {k : Nat} (hk : k < 8) :
    s.restartedOps.carousel k = (s.carousel k).restarted := by
  rw [State.restartedOps_eq]
  obtain ⟨p, hports⟩ := s.restartStock.restartMotions.restartPorts_frame
  obtain ⟨r, haudits⟩ := s.restartStock.restartMotions.restartPorts.restartLines.restartAudits_frame
  have hmotions := s.restartStock.restartMotions_carousel hk
  rw [haudits, hports]
  generalize s.restartStock.restartMotions = t at hmotions ⊢
  exact hmotions

theorem State.restartedOps_field : s.restartedOps.ring.field =
    ((carouselNumbers.filter (fun k => (s.carousel k).state.turning)).foldl
      (fun u k => u.queueField (.drive k) .stop) s).ring.field := by
  rw [State.restartedOps_eq]
  obtain ⟨p, hports⟩ := s.restartStock.restartMotions.restartPorts_frame
  obtain ⟨r, haudits⟩ := s.restartStock.restartMotions.restartPorts.restartLines.restartAudits_frame
  have hmotions := s.restartStock.restartMotions_field s rfl fun _ => rfl
  rw [haudits, hports]
  generalize s.restartStock.restartMotions = t at hmotions ⊢
  exact hmotions

theorem State.restartedOps_port {k : Nat} (hk : k < 8) : s.restartedOps.port k = (s.port k).restarted := by
  rw [State.restartedOps_eq]
  obtain ⟨c, q, hmotions⟩ := s.restartStock.restartMotions_frame
  obtain ⟨r, haudits⟩ := s.restartStock.restartMotions.restartPorts.restartLines.restartAudits_frame
  have hport : s.restartStock.restartMotions.port k = s.port k := by rw [hmotions]; rfl
  have hports := s.restartStock.restartMotions.restartPorts_port hk
  rw [haudits, ← hport]
  generalize s.restartStock.restartMotions.restartPorts = t at hports ⊢
  exact hports

theorem State.restartedOps_auditRecord {k : Nat} (hk : k < 8) :
    s.restartedOps.auditRecord k = (s.auditRecord k).restarted (s.activeZones k) := by
  obtain ⟨c, q, hmotions⟩ := s.restartStock.restartMotions_frame
  obtain ⟨p, hports⟩ := s.restartStock.restartMotions.restartPorts_frame
  have hrecord : s.restartStock.restartMotions.restartPorts.restartLines.auditRecord k = s.auditRecord k := by
    rw [hports, hmotions]; rfl
  have hzones : s.restartStock.restartMotions.restartPorts.restartLines.activeZones k = s.activeZones k := by
    have hcarousel := s.restartStock.restartMotions_carousel hk
    refine State.activeZones_congr ?_ (by rw [hrecord])
    rw [hports]
    generalize s.restartStock.restartMotions = t at hcarousel ⊢
    show (t.carousel k).zoneCarriers = _
    rw [hcarousel]
    rfl
  rw [State.restartedOps_eq, State.restartAudits_auditRecord _ hk, hrecord, hzones]

end

/-- The slot's record that RESTART-OPS leaves, by its content (R26). -/
theorem State.restartedOps_slot (s : State) (i : Nat) : s.restartedOps.slot i = (s.slot i).restarted := by
  obtain ⟨c, p, q, r, h⟩ := s.restartedOps_frame
  rw [h]
  exact s.restartStock_slot i

theorem CarouselState.turning_iff (x : CarouselState) : x.turning = true ↔ x = .moving ∨ x = .interrupted := by
  cases x <;> simp [CarouselState.turning]

/-- RESTART-ALL from node 0, its reply placed. -/
theorem restartAll_answer (s : State) : answerTo (.restartAll 0) s = ⟨s.restartedAll, .done, []⟩ := by
  show fromNodeZero 0 restartAllAnswer s = _
  rw [fromNodeZero, if_pos rfl, restartAllAnswer]

theorem restartedAll_replied (s : State) : s.restartedAll.placeReply 0 32 .done [] =
    { pending := s.pending, address := s.address, serviceHigh := s.serviceHigh,
      ring := { transmitter := s.ring.transmitter, replies := [⟨0, 32, .done, []⟩],
                notices := [⟨1, .started s.address s.serviceHigh true⟩] },
      command := { noticeSequence := 1 } } := rfl

theorem restartOps_answer (s : State) : answerTo (.restartOps 0) s =
    ⟨s.restartedOps.notify (.restarted s.planner.orders.length s.reservedSlots s.inboundSlots), .done,
      be1 s.planner.orders.length ++ be2 s.reservedSlots ++ be1 s.inboundSlots⟩ := by
  show fromNodeZero 0 restartOpsAnswer s = _
  rw [fromNodeZero, if_pos rfl, restartOpsAnswer]

/-- Settles O40: RESTART-ALL's power-on values, and RESTART-OPS block by block. -/
theorem restartsEndTheWork : Obligations.RestartsEndTheWork := by
  refine ⟨fun s hs => ?all, fun s hs => ?ops⟩
  case all =>
    rw [exec_restartAll, command_of_answer hs (restartAll_answer s), ← restartedAll_replied s]
    rfl
  case ops =>
    intro reserved inbound
    have hexec := (exec_restartOps 0 s).trans (command_of_answer hs (restartOps_answer s))
    have hslot := s.restartedOps_slot
    have hcarousel : ∀ k < 8, s.restartedOps.carousel k = (s.carousel k).restarted := fun k => s.restartedOps_carousel
    have hport : ∀ k < 8, s.restartedOps.port k = (s.port k).restarted := fun k => s.restartedOps_port
    have hrecord : ∀ k < 8, s.restartedOps.auditRecord k = (s.auditRecord k).restarted (s.activeZones k) :=
      fun k => s.restartedOps_auditRecord
    have hfield := s.restartedOps_field
    obtain ⟨c, p, q, r, hframe⟩ := s.restartedOps_frame
    generalize s.restartedOps = u at hframe hcarousel hport hrecord hfield hslot hexec
    have hq : u.ring.field = q := by rw [hframe]
    refine ⟨u, hexec, fun i => ?slot, by rw [hframe]; rfl, by rw [hframe]; rfl, ?handed, fun k hk => ?carousel,
      by rw [hframe], ?ring, fun k hk => ?port, by rw [hframe], by rw [hframe], by rw [hframe],
      fun k hk => ?audit, by rw [hframe], by rw [hframe]; rfl, by rw [hframe]; rfl, by rw [hframe]; rfl,
      by rw [hframe]; rfl, by rw [hframe]; rfl, by rw [hframe]; rfl⟩
    case slot =>
      rw [hslot]
      unfold Slot.restarted
      cases (s.slot i).content <;> rfl
    case handed =>
      rw [hframe]
      refine congrArg (fun f => s.handed.filter f) (funext fun c => ?_)
      cases c <;> rfl
    case carousel =>
      rw [hcarousel k hk, Carousel.restarted]
      cases h : (s.carousel k).state <;> rfl
    case ring =>
      have hturning : (List.range 8).filter
            (fun k => (s.carousel k).state = .moving ∨ (s.carousel k).state = .interrupted)
          = carouselNumbers.filter (fun k => (s.carousel k).state.turning) := by
        refine List.filter_congr fun k _ => ?_
        rw [Bool.eq_iff_iff, decide_eq_true_eq, CarouselState.turning_iff]
      rw [hturning, ← hfield, hq, hframe]
    case port => exact hport k hk
    case audit =>
      rw [hrecord k hk]
      exact ⟨fun h => by simp only [AuditRecord.restarted, h, if_false], fun h => by
        simp only [AuditRecord.restarted, h, if_true]⟩

end Sys2Proof.Machine

/-!
# The family of calls and presentations: O45, O46, O47

What a port asks of its carousel and what its carousel tells it: each function of the model gets one equation per
case of the sequencer's work, and the obligations read those equations off.
-/

namespace Sys2Proof.Machine

/-- What an event's row comes to, by what the event itself gives. -/
theorem event_gives {s t : State} {c : Instr} {f : State → State} (hs : s.serving = true) (h : f (s.take c) = t) :
    event c f s = .next (State.finish s t) := by
  rw [event_eq hs, h]

/-! ## The travel and the choice of a stop (R59, R60) -/

section
variable (x : Carousel)

theorem Carousel.travel_backward {c : Nat} (hb : x.bidirectional = true)
    (h : (x.carriers - forwardDistance x.carriers x.atPort c) % x.carriers < forwardDistance x.carriers x.atPort c) :
    x.travel c = ⟨.backward, (x.carriers - forwardDistance x.carriers x.atPort c) % x.carriers⟩ := by
  simp only [Carousel.travel, hb, h, decide_true, Bool.and_self, if_true]

theorem Carousel.travel_forward {c : Nat} (h : x.bidirectional = false ∨ forwardDistance x.carriers x.atPort c ≤
      (x.carriers - forwardDistance x.carriers x.atPort c) % x.carriers) :
    x.travel c = ⟨.forward, forwardDistance x.carriers x.atPort c⟩ := by
  refine if_neg ?_
  rw [Bool.and_eq_true, decide_eq_true_eq]
  rintro ⟨hb, hlt⟩
  rcases h with h | h
  · rw [h] at hb; cases hb
  · omega

/-- A rank is less exactly where the travel is shorter, or as short and reached FORWARD against BACKWARD. -/
theorem Leg.rank_lt_iff (a b : Leg) : a.rank < b.rank ↔
    a.steps < b.steps ∨ (a.steps = b.steps ∧ a.direction = .forward ∧ b.direction = .backward) := by
  unfold Leg.rank
  cases a.direction <;> cases b.direction <;> simp [Direction.code] <;> omega

theorem nearestStop_mem {l : List Stop} {y : Stop} (h : nearestStop x l = some y) : y ∈ l := by
  induction l generalizing y with
  | nil => cases h
  | cons z rest ih =>
    rw [nearestStop] at h
    cases hr : nearestStop x rest with
    | none =>
      rw [hr] at h
      cases h
      exact List.mem_cons_self
    | some w =>
      rw [hr] at h
      dsimp only at h
      split at h
      · cases h; exact List.mem_cons_of_mem z (ih hr)
      · cases h; exact List.mem_cons_self

theorem nearestStop_head {y : Stop} {later : List Stop}
    (h : ∀ z ∈ later, ¬(x.travel z.carrier).rank < (x.travel y.carrier).rank) :
    nearestStop x (y :: later) = some y := by
  rw [nearestStop]
  cases hr : nearestStop x later with
  | none => rfl
  | some z => exact if_neg (h z (nearestStop_mem x hr))

/-- The nearest stop is nearer than those before it, and none after it is nearer. -/
theorem nearestStop_eq {first later : List Stop} {y : Stop}
    (hf : ∀ z ∈ first, (x.travel y.carrier).rank < (x.travel z.carrier).rank)
    (hl : ∀ z ∈ later, ¬(x.travel z.carrier).rank < (x.travel y.carrier).rank) :
    nearestStop x (first ++ y :: later) = some y := by
  induction first with
  | nil => exact nearestStop_head x hl
  | cons z rest ih =>
    rw [List.cons_append, nearestStop, ih fun w hw => hf w (List.mem_cons_of_mem z hw)]
    exact if_pos (hf z List.mem_cons_self)

/-- A stop has been bypassed up to the limit. -/
def Carousel.due (z : Stop) : Bool := 0 < x.bypassLimit && x.bypassLimit ≤ z.bypass

theorem Carousel.due_iff (z : Stop) : x.due z = true ↔ 0 < x.bypassLimit ∧ x.bypassLimit ≤ z.bypass := by
  simp only [Carousel.due, Bool.and_eq_true, decide_eq_true_eq]

theorem Carousel.chooseStop_due {first later : List Stop} {y : Stop} (h : x.stops = first ++ y :: later)
    (hy : x.due y = true) (hf : ∀ z ∈ first, x.due z = false) : x.chooseStop = some y := by
  have hfind : x.stops.find? x.due = some y :=
    List.find?_eq_some_iff_append.2 ⟨hy, first, later, h, fun z hz => by rw [hf z hz]; rfl⟩
  unfold Carousel.due at hfind
  unfold Carousel.chooseStop
  rw [hfind]

theorem Carousel.chooseStop_nearest (h : ∀ z ∈ x.stops, x.due z = false) :
    x.chooseStop = nearestStop x x.stops := by
  have hfind : x.stops.find? x.due = none :=
    List.find?_eq_none.2 fun z hz => by rw [h z hz]; exact Bool.false_ne_true
  unfold Carousel.due at hfind
  unfold Carousel.chooseStop
  rw [hfind]

theorem Carousel.chooseStop_nil (h : x.stops = []) : x.chooseStop = none := by
  rw [x.chooseStop_nearest (by rw [h]; exact fun _ hz => nomatch hz), h]
  rfl

end

/-! ## Calls (R60, R82 to R84) -/

section
variable {s : State} {k : Nat}

theorem Carousel.sweeping_iff (x : Carousel) : x.sweeping = true ↔ ∃ m, x.move = some m ∧ m.purpose = .sweep := by
  unfold Carousel.sweeping
  cases x.move <;> simp

/-- A carousel that answers a call: STANDING, or under a sweep. -/
theorem Carousel.availability_ready_iff (x : Carousel) : x.availability = .ready ↔ x.state = .standing
    ∨ ((x.state = .moving ∨ x.state = .interrupted ∨ x.state = .curtainWait)
      ∧ ∃ m, x.move = some m ∧ m.purpose = .sweep) := by
  rw [← x.sweeping_iff]
  unfold Carousel.availability
  cases x.state <;> simp

theorem State.makeCall_unwanted (h : ¬((s.port k).work = .idle ∧ (s.port k).mode = .pick)) : s.makeCall k = s := if_neg h

theorem State.callRequest_refused (h : (s.carousel k).availability ≠ .ready) :
    s.callRequest k = (s, .unavailable) ∨ s.callRequest k = (s, .busy) := by
  cases ha : (s.carousel k).availability with
  | unavailable => exact Or.inl (by simp only [State.callRequest, ha])
  | busy => exact Or.inr (by simp only [State.callRequest, ha])
  | ready => exact absurd ha h

variable (hw : (s.port k).work = .idle ∧ (s.port k).mode = .pick)
include hw

theorem State.makeCall_refused (h : (s.carousel k).availability ≠ .ready) : s.makeCall k = s := by
  rw [State.makeCall, if_pos hw]
  rcases State.callRequest_refused h with hr | hr <;> rw [hr]

variable (hready : (s.carousel k).availability = .ready)
include hready

theorem State.makeCall_underrun (h : (s.carousel k).chooseStop = none) : s.makeCall k = s.underrun k := by
  have hr : s.callRequest k = (s, .underrun) := by simp only [State.callRequest, hready, h]
  rw [State.makeCall, if_pos hw, hr]

variable {y : Stop} (hy : (s.carousel k).chooseStop = some y)
include hy

theorem State.makeCall_atPort (h : (s.carousel k).state = .standing ∧ y.carrier = (s.carousel k).atPort) :
    s.makeCall k = ((s.onCarousel k (fun c => { c with stops := passOver y c.stops })).onCarousel k (fun c => { c with
      stops := c.stops.filter (fun z => z.carrier ≠ y.carrier) })).startPresentation k y := by
  have hr : s.callRequest k = ((s.onCarousel k (fun c => { c with stops := passOver y c.stops })).onCarousel k
      (fun c => { c with stops := c.stops.filter (fun z => z.carrier ≠ y.carrier) }), .atPort (some y)) := by
    simp only [State.callRequest, hready, hy]
    exact if_pos h
  rw [State.makeCall, if_pos hw, hr]

theorem State.makeCall_called (h : ¬((s.carousel k).state = .standing ∧ y.carrier = (s.carousel k).atPort)) :
    s.makeCall k = ((s.onCarousel k (fun c => { c with stops := passOver y c.stops })).moveRequest k .call y.carrier
      ((s.carousel k).travel y.carrier)).onPort k (fun p => { p with work := .calling }) := by
  have hr : s.callRequest k = ((s.onCarousel k (fun c => { c with stops := passOver y c.stops })).moveRequest k .call
      y.carrier ((s.carousel k).travel y.carrier), .called) := by
    simp only [State.callRequest, hready, hy]
    exact if_neg h
  rw [State.makeCall, if_pos hw, hr]

end

theorem passOver_eq (y : Stop) (stops : List Stop) : passOver y stops = stops.map (fun z =>
    if z.carrier = y.carrier then z else { z with bypass := min 15 (z.bypass + 1) }) := by
  simp only [passOver, saturate_eq_min]

/-- The port's record after an underrun is counted (R84). -/
def Port.underrunCounted (p : Port) : Port :=
  { p with underrunCount := min 65535 (p.underrunCount + 1),
           workSinceReport := if p.underrunReport = .every then p.workSinceReport else false }

/-- The state in which an underrun is counted and its display shown (R84). -/
def State.underrunShown (s : State) (k : Nat) : State :=
  if (s.port k).underrunDisplay = .idlePattern then (s.onPort k Port.underrunCounted).darken k .idlePattern
  else if (s.port k).underrunDisplay = .dark then (s.onPort k Port.underrunCounted).darken k .none
  else s.onPort k Port.underrunCounted

theorem State.underrunShown_count (s : State) (k : Nat) :
    ((s.underrunShown k).port k).underrunCount = min 65535 ((s.port k).underrunCount + 1) := by
  have hcounted : ((s.onPort k Port.underrunCounted).port k).underrunCount
      = min 65535 ((s.port k).underrunCount + 1) := by rw [State.onPort_same]; rfl
  unfold State.underrunShown
  split
  · rw [State.darken, State.onPort_same]; exact hcounted
  · split
    · rw [State.darken, State.onPort_same]; exact hcounted
    · exact hcounted

theorem Port.reportsUnderrun_iff (p : Port) :
    p.reportsUnderrun = true ↔ p.underrunReport = .every ∨ p.workSinceReport = true := by
  unfold Port.reportsUnderrun
  cases p.underrunReport <;> simp

theorem State.underrun_eq (s : State) (k : Nat) :
    s.underrun k = if (s.port k).reportsUnderrun then (s.underrunShown k).notify
      (.portUnderrun k (min 65535 ((s.port k).underrunCount + 1))) else s.underrunShown k := by
  unfold State.underrun
  extract_lets counted shown
  have hcounted : counted = s.onPort k Port.underrunCounted := by
    refine congrArg (s.onPort k) (funext fun p => ?_)
    rw [Port.underrunCounted, saturate_eq_min]
    cases p.underrunReport <;> rfl
  have hshown : shown = s.underrunShown k := by
    unfold shown State.underrunShown
    rw [hcounted]
    cases (s.port k).underrunDisplay <;> rfl
  rw [hshown, State.underrunShown_count]

/-- Settles O45: READY's call, its answers, the presentation it starts, travel, and the choice of a stop. -/
theorem callsAreMadeForTheChosenStop : Obligations.CallsAreMadeForTheChosenStop := by
  refine ⟨⟨⟨fun s k hs => ?ready, ?call, fun s k y => rfl⟩, ?choice⟩, fun s k => rfl⟩
  case ready =>
    rw [exec_ready]
    exact event_gives hs rfl
  case call =>
    intro s k x p wants sweeps free
    have hfree : x.availability = .ready ↔ free := x.availability_ready_iff
    refine ⟨State.makeCall_unwanted, fun hw hf => State.makeCall_refused hw (mt hfree.1 hf), fun hw hf hstops => ?_,
      fun y hw hf hy => ?_⟩
    · intro counted dark shown
      have hcall := State.makeCall_underrun hw (hfree.2 hf) (Carousel.chooseStop_nil x hstops)
      have hshown : shown = s.underrunShown k := rfl
      have hreports := p.reportsUnderrun_iff
      rw [hcall, State.underrun_eq, hshown]
      exact ⟨fun h => if_pos (hreports.2 h), fun he hnw => if_neg (mt hreports.1 (by
        rw [hnw]; exact fun h => h.elim he Bool.false_ne_true))⟩
    · intro passed
      have hpassed : passed = s.onCarousel k (fun c => { c with stops := passOver y c.stops }) := by
        simp only [passOver_eq]
        rfl
      rw [hpassed]
      exact ⟨fun hst hc => State.makeCall_atPort hw (hfree.2 hf) hy ⟨hst, hc⟩,
        fun h => State.makeCall_called hw (hfree.2 hf) hy (by tauto)⟩
  case choice =>
    intro x df db due before
    have hdue : ∀ z, x.due z = true ↔ due z := x.due_iff
    have hbefore : ∀ y z, (x.travel y.carrier).rank < (x.travel z.carrier).rank ↔ before y z :=
      fun y z => Leg.rank_lt_iff _ _
    refine ⟨fun c => ⟨x.travel_backward, x.travel_forward⟩, x.chooseStop_nil, fun first y later h => ⟨?_, ?_⟩⟩
    · intro hy hf
      exact x.chooseStop_due h ((hdue y).2 hy) fun z hz => Bool.eq_false_iff.2 (mt (hdue z).1 (hf z hz))
    · intro hn hf hl
      rw [x.chooseStop_nearest fun z hz => Bool.eq_false_iff.2 (mt (hdue z).1 (hn z hz)), h]
      exact nearestStop_eq x (fun z hz => (hbefore y z).2 (hf z hz)) fun z hz => mt (hbefore z y).1 (hl z hz)

/-! ## The return to IDLE, and a stop handed back (R58, R81) -/

section
variable {s : State} {k : Nat}

theorem State.toIdle_none (h : (s.port k).pendingMode = none) :
    s.toIdle k = (s.onPort k (fun p => { p with work := .idle })).autoCall k := by
  simp only [State.toIdle, h]

theorem State.toIdle_sameMode {m : PortModeName} (h : (s.port k).pendingMode = some m) (hm : m = (s.port k).mode) :
    s.toIdle k = (s.onPort k (fun p => { p with work := .idle, mode := m, pendingMode := none })).autoCall k := by
  simp only [State.toIdle, h]
  exact congrArg (fun t => State.autoCall t k) (if_pos hm)

theorem State.toIdle_otherMode {m : PortModeName} (h : (s.port k).pendingMode = some m) (hm : m ≠ (s.port k).mode) :
    s.toIdle k = ((s.onPort k (fun p => { p with work := .idle, mode := m, pendingMode := none })).darken k
      .none).autoCall k := by
  simp only [State.toIdle, h]
  exact congrArg (fun t => State.autoCall t k) (if_neg hm)

/-- A stop put into the list of the others, none of which is for its carrier (R58). -/
def State.putStop (s : State) (k carrier : Nat) (b : Stop) : State :=
  s.onCarousel k (fun c => { c with stops := insertStop b (c.stops.filter (fun z => z.carrier ≠ carrier)) })

variable {y : Stop}

theorem State.returnStop_empty (h : y.tasks = []) : s.returnStop k y = s := if_pos (by rw [h]; rfl)

variable (ht : y.tasks ≠ [])
include ht

theorem State.returnStop_first (h : (s.carousel k).stops = []) :
    s.returnStop k y = (s.putStop k y.carrier { y with bypass := min 15 y.bypass }).autoCall k := by
  rw [State.returnStop, if_neg (by rwa [List.isEmpty_iff])]
  simp only [h, List.find?_nil, List.isEmpty_nil, if_true]
  rfl

theorem State.returnStop_new (h : (s.carousel k).stops ≠ [])
    (hn : ∀ z ∈ (s.carousel k).stops, z.carrier ≠ y.carrier) :
    s.returnStop k y = s.putStop k y.carrier { y with bypass := min 15 y.bypass } := by
  have hfind : (s.carousel k).stops.find? (fun z => z.carrier = y.carrier) = none :=
    List.find?_eq_none.2 fun z hz => by rw [decide_eq_true_eq]; exact hn z hz
  rw [State.returnStop, if_neg (by rwa [List.isEmpty_iff])]
  simp only [hfind]
  exact if_neg (by rwa [List.isEmpty_iff])

theorem State.returnStop_joined {z : Stop} (h : (s.carousel k).stops.find? (fun z => z.carrier = y.carrier) = some z) :
    s.returnStop k y = s.putStop k y.carrier (mergeStops { y with bypass := min 15 y.bypass } z) := by
  have hstops : (s.carousel k).stops ≠ [] := List.ne_nil_of_mem (List.mem_of_find?_eq_some h)
  rw [State.returnStop, if_neg (by rwa [List.isEmpty_iff])]
  simp only [h]
  exact if_neg (by rwa [List.isEmpty_iff])

end

theorem insertStop_before {b y : Stop} {first rest : List Stop} (hf : ∀ z ∈ first, earlier z.creation b.creation = true)
    (hy : earlier y.creation b.creation = false) : insertStop b (first ++ y :: rest) = first ++ b :: y :: rest := by
  induction first with
  | nil => exact if_neg (by rw [hy]; exact Bool.false_ne_true)
  | cons z first ih =>
    rw [List.cons_append, insertStop, if_pos (hf z List.mem_cons_self),
      ih fun w hw => hf w (List.mem_cons_of_mem z hw)]
    rfl

theorem insertStop_last {b : Stop} {stops : List Stop} (h : ∀ z ∈ stops, earlier z.creation b.creation = true) :
    insertStop b stops = stops ++ [b] := by
  induction stops with
  | nil => rfl
  | cons z stops ih =>
    rw [insertStop, if_pos (h z List.mem_cons_self), ih fun w hw => h w (List.mem_cons_of_mem z hw)]
    rfl

/-- Settles O47: the return to IDLE by its pending mode, and a stop handed back by the list it returns to. -/
theorem portsReturnToIdle : Obligations.PortsReturnToIdle := by
  refine ⟨fun s k => ⟨fun h => State.toIdle_none h, fun m h => ⟨State.toIdle_sameMode h, State.toIdle_otherMode h⟩⟩,
    fun s k y => ⟨State.returnStop_empty, fun ht => ⟨State.returnStop_first ht, State.returnStop_new ht,
      fun z => State.returnStop_joined ht⟩⟩, fun b stops => ⟨?_, insertStop_last⟩, fun a b _ _ => ?_⟩
  · rintro first y rest rfl
    exact insertStop_before
  · simp only [earlier, Bool.and_eq_true, decide_eq_true_eq]

/-! ## Presentations and put-aways broken off (R87, R93, R94, R96, R97) -/

section
variable {s : State} {k : Nat} {x : Presentation}

theorem State.skipCarrier_presenting (h : (s.port k).work = .presenting x) :
    s.skipCarrier k = (s.breakPresentation k x (x.bypass + 1) .none).toIdle k := by
  simp only [State.skipCarrier, h]

theorem State.skipCarrier_other (h : ∀ x, (s.port k).work ≠ .presenting x) : s.skipCarrier k = s := by
  unfold State.skipCarrier
  split
  next pr hpr => exact absurd hpr (h pr)
  all_goals rfl

theorem State.presentationExpiry_same
    (h : (s.port k).timer = none ∨ (s.port k).work = .idle ∨ (s.port k).work = .calling) :
    s.presentationExpiry k = s := by
  unfold State.presentationExpiry
  split
  · rfl
  next n ht =>
    rcases h with h | h | h
    · rw [h] at ht; cases ht
    · simp only [h]
    · simp only [h]

theorem State.presentationExpiry_presenting (ht : (s.port k).timer ≠ none) (h : (s.port k).work = .presenting x) :
    s.presentationExpiry k = ((s.breakPresentation k x (x.bypass + 1) .none).notify
      (.presentationTimeout k x.carrier x.tasks.length x.creation)).toIdle k := by
  obtain ⟨n, hn⟩ := Option.ne_none_iff_exists'.1 ht
  simp only [State.presentationExpiry, hn, h]

theorem State.presentationExpiry_placing {c : Nat} (ht : (s.port k).timer ≠ none) (h : (s.port k).work = .placing c) :
    s.presentationExpiry k = ((s.abandonPutaway k .timeout).darken k .none).toIdle k := by
  obtain ⟨n, hn⟩ := Option.ne_none_iff_exists'.1 ht
  simp only [State.presentationExpiry, hn, h]

theorem State.carrierLeft_presenting (h : (s.port k).work = .presenting x) :
    s.carrierLeft k = (s.breakPresentation k x x.bypass .moveInProgress).toIdle k := by
  simp only [State.carrierLeft, h]

theorem State.carrierLeft_placing {c : Nat} (h : (s.port k).work = .placing c) :
    s.carrierLeft k = ((s.abandonPutaway k .carrierLeft).darken k .moveInProgress).toIdle k := by
  simp only [State.carrierLeft, h]

theorem State.callFailed_calling (h : (s.port k).work = .calling) :
    s.callFailed k = (s.abandonPutaway k .callFailed).toIdle k := by
  simp only [State.callFailed, h]

theorem State.callFailed_other (h : (s.port k).work ≠ .calling) : s.callFailed k = s := by
  unfold State.callFailed
  split
  next hw => exact absurd hw h
  all_goals rfl

theorem State.withdraw_inbound {i : Nat} {t : Tyre} (h : (s.slot i).content = .inbound t) :
    s.withdraw i = s.writeSlot i ⟨.empty, true⟩ := by
  simp only [State.withdraw, h]
  rfl

theorem State.withdraw_other {i : Nat} (h : ∀ t, (s.slot i).content ≠ .inbound t) : s.withdraw i = s := by
  unfold State.withdraw
  split
  next t ht => exact absurd ht (h t)
  all_goals rfl

theorem State.abandonPutaway_none {cause : PutawayCause} (h : (s.port k).putaway = none) :
    s.abandonPutaway k cause = s := by
  simp only [State.abandonPutaway, h]

theorem State.abandonPutaway_some {cause : PutawayCause} {a : Putaway} (h : (s.port k).putaway = some a) :
    s.abandonPutaway k cause =
      ((s.withdraw a.slot).clearPutaway k).notify (a.endedNotice k a.slot cause none) := by
  simp only [State.abandonPutaway, h]

/-! ### An absent terminal (R87) -/

theorem State.dropWork_presenting (h : (s.port k).work = .presenting x) :
    s.dropWork k = s.returnStop k (x.toStop x.bypass) := by
  simp only [State.dropWork, h]

theorem State.dropWork_idle (h : (s.port k).work = .idle) : s.dropWork k = s := by
  simp only [State.dropWork, h]

theorem State.dropWork_called (h : (s.port k).work = .calling ∨ ∃ c, (s.port k).work = .placing c) :
    s.dropWork k = s.abandonPutaway k .absent := by
  rcases h with h | ⟨c, h⟩ <;> simp only [State.dropWork, h]

/-- The port of an absent terminal, its work in hand ended (R87). -/
def State.closePort (s : State) (k : Nat) : State :=
  (s.onPort k (fun p => { p with timer := none, work := .idle, mode := .closed, pendingMode := none })).darken k .none

theorem State.portAbsent_again (h : (s.port k).absent = true) : s.portAbsent k = s := if_pos h

theorem State.portAbsent_first {t : State} (h : (s.port k).absent = false)
    (ht : (s.onPort k (fun p => { p with absent := true })).dropWork k = t) :
    s.portAbsent k = (t.closePort k).notify (.portAbsent k (s.carousel k).port) := by
  rw [State.portAbsent, if_neg (by rw [h]; exact Bool.false_ne_true), ht, State.closePort]

theorem State.markAbsent_work {w : PortWork} (h : (s.port k).work = w) :
    ((s.onPort k (fun p => { p with absent := true })).port k).work = w := by
  rw [State.onPort_same]; exact h

/-! ### What the Motion Unit tells its port (R83, R96) -/

theorem State.arrivalAt_called {c : Nat} {y : Stop} (hw : (s.port k).work = .calling) (hm : (s.port k).mode = .pick) :
    s.arrivalAt k c (some y) = s.startPresentation k y := by
  simp only [State.arrivalAt, hw, hm]

theorem State.arrivalAt_gone {c : Nat} (hw : (s.port k).work = .calling) (hm : (s.port k).mode = .pick) :
    s.arrivalAt k c none = s.toIdle k := by
  simp only [State.arrivalAt, hw, hm]

theorem State.arrivalAt_store {c : Nat} {a : Putaway} {z : Option Stop} (hw : (s.port k).work = .calling)
    (hm : (s.port k).mode = .store) (ha : (s.port k).putaway = some a) :
    s.arrivalAt k c z = if slotCarrier a.slot = c then s.startPlacing k c else s.storeCall k := by
  simp only [State.arrivalAt, hw, hm, ha]

theorem State.arrivalAt_uncalled {c : Nat} {y : Stop} (hw : (s.port k).work ≠ .calling) :
    s.arrivalAt k c none = s ∧ s.arrivalAt k c (some y) = s.returnStop k y := by
  unfold State.arrivalAt
  cases h : (s.port k).work with
  | calling => exact absurd h hw
  | idle => exact ⟨rfl, rfl⟩
  | presenting x => exact ⟨rfl, rfl⟩
  | placing c => exact ⟨rfl, rfl⟩

end

/-- Settles O46: how presentations and placements end, at each event that ends them. -/
theorem presentationsEnd : Obligations.PresentationsEnd := by
  refine ⟨fun s k hs => ?events, fun s k => ?parts⟩
  case events =>
    intro p
    refine ⟨?skip, ?expiry, ?returned⟩
    case skip =>
      intro e
      unfold e
      rw [exec_skip]
      exact ⟨fun h => event_gives hs (State.skipCarrier_other h),
        fun x h => event_gives hs (State.skipCarrier_presenting h)⟩
    case expiry =>
      intro e
      unfold e
      rw [exec_presentationTimerExpiry]
      exact ⟨fun h => event_gives hs (State.presentationExpiry_same h),
        fun x ht h => event_gives hs (State.presentationExpiry_presenting ht h),
        fun c ht h => event_gives hs (State.presentationExpiry_placing ht h)⟩
    case returned =>
      intro e
      unfold e
      rw [exec_returnedDisplay]
      refine ⟨fun h => event_gives hs (State.portAbsent_again h), fun h => ?_⟩
      intro gone closed
      exact ⟨fun hw => event_gives hs (State.portAbsent_first h (State.dropWork_idle (State.markAbsent_work hw))),
        fun hw => event_gives hs (State.portAbsent_first h (State.dropWork_called
          (hw.imp State.markAbsent_work (Exists.imp fun _ => State.markAbsent_work)))),
        fun x hw => event_gives hs (State.portAbsent_first h
          (State.dropWork_presenting (State.markAbsent_work hw)))⟩
  case parts =>
    intro p
    refine ⟨fun x b m => rfl, fun cause => State.abandonPutaway_none, fun cause a ha => ⟨?inbound, fun h => ?other⟩,
      fun x => State.carrierLeft_presenting, fun c => State.carrierLeft_placing, State.callFailed_calling,
      State.callFailed_other, fun c y => ⟨State.arrivalAt_called, State.arrivalAt_gone, fun a z hw hm ha => ?_,
        State.arrivalAt_uncalled⟩⟩
    case inbound =>
      rintro ⟨t, ht⟩
      rw [State.abandonPutaway_some ha, State.withdraw_inbound ht]
      rfl
    case other =>
      rw [State.abandonPutaway_some ha, State.withdraw_other h]
      rfl
    rw [State.arrivalAt_store hw hm ha]
    exact ⟨fun h => if_pos h, fun h => if_neg h⟩

end Sys2Proof.Machine

/-!
# The family of scans and put-aways: O48, O49, O50

The slot that a put-away takes is the least of the open slots by a rank, so the search's lemmas say that its answer
is the least; SCAN, PLACED and the Stock Unit's notices then follow their cases.
-/

namespace Sys2Proof.Machine

/-! ## The slots of a carousel, by slot index (R1, R12) -/

section
variable {x : Carousel} {k : Nat}

theorem Carousel.mem_mappedSlots (hc : x.carriers ≤ 96) (hp : x.positions ≤ 8) (e : Nat × Nat) :
    e ∈ x.mappedSlots k ↔ e.1 = slotCarrier e.2 ∧ slotCarousel e.2 = k ∧ slotCarrier e.2 < x.carriers
      ∧ slotPosition e.2 < x.positions := by
  obtain ⟨c, i⟩ := e
  simp only [Carousel.mappedSlots, List.mem_flatMap, List.mem_map, List.mem_range, Prod.mk.injEq, slotIndex, slotCarrier,
    slotCarousel, slotPosition]
  constructor
  · rintro ⟨c', hc', y, hy, rfl, rfl⟩
    omega
  · rintro ⟨rfl, rfl, h, h'⟩
    exact ⟨_, h, _, h', rfl, by omega⟩

theorem Carousel.mappedSlots_sorted (hp : x.positions ≤ 8) :
    (x.mappedSlots k).Pairwise (fun a b => a.2 < b.2) := by
  refine List.pairwise_flatMap.2 ⟨fun c _ => ?_, ?_⟩
  · exact List.pairwise_map.2 (List.pairwise_lt_range.imp fun h => by unfold slotIndex; omega)
  · refine List.pairwise_lt_range.imp fun {c c'} h a ha b hb => ?_
    obtain ⟨y, hy, rfl⟩ := List.mem_map.1 ha
    obtain ⟨z, hz, rfl⟩ := List.mem_map.1 hb
    rw [List.mem_range] at hy
    simp only [slotIndex]
    omega

end

/-- The slot `i` is reached before the slot `j`, or is it: by the rank of the travel, then by slot index (R12). -/
def Carousel.reachesFirst (x : Carousel) (i j : Nat) : Prop :=
  (x.travel (slotCarrier i)).rank < (x.travel (slotCarrier j)).rank
    ∨ ((x.travel (slotCarrier i)).rank = (x.travel (slotCarrier j)).rank ∧ i ≤ j)

section
variable {x : Carousel} {l : List (Nat × Nat)}

theorem nearestSlot_eq_none : nearestSlot x l = none ↔ l = [] := by
  cases l with
  | nil => exact ⟨fun _ => rfl, fun _ => rfl⟩
  | cons e rest =>
    refine ⟨fun h => ?_, fun h => nomatch h⟩
    unfold nearestSlot at h
    cases hr : nearestSlot x rest with
    | none => rw [hr] at h; cases h
    | some y =>
      rw [hr] at h
      dsimp only at h
      split at h <;> cases h

/-- The answer of the search is one of the slots, and none is reached before it. -/
theorem nearestSlot_spec (hs : l.Pairwise (fun a b => a.2 < b.2)) (hc : ∀ e ∈ l, e.1 = slotCarrier e.2) {i : Nat}
    (h : nearestSlot x l = some i) : (∃ e ∈ l, e.2 = i) ∧ ∀ e ∈ l, x.reachesFirst i e.2 := by
  induction l generalizing i with
  | nil => cases h
  | cons e rest ih =>
    obtain ⟨he, hrest⟩ := List.pairwise_cons.1 hs
    have hself : x.reachesFirst e.2 e.2 := Or.inr ⟨rfl, Nat.le_refl _⟩
    unfold nearestSlot at h
    cases hr : nearestSlot x rest with
    | none =>
      rw [hr] at h
      cases h
      rw [nearestSlot_eq_none.1 hr]
      exact ⟨⟨e, List.mem_singleton_self e, rfl⟩, fun d hd => by rw [List.mem_singleton.1 hd]; exact hself⟩
    | some y =>
      obtain ⟨⟨d, hd, hdy⟩, hfirst⟩ := ih hrest (fun e he => hc e (List.mem_cons_of_mem _ he)) hr
      rw [hr] at h
      dsimp only at h
      rw [hc e List.mem_cons_self] at h
      split at h
      next hlt =>
        cases h
        exact ⟨⟨d, List.mem_cons_of_mem e hd, hdy⟩, List.forall_mem_cons.2 ⟨Or.inl hlt, hfirst⟩⟩
      next hge =>
        cases h
        refine ⟨⟨e, List.mem_cons_self, rfl⟩, List.forall_mem_cons.2 ⟨hself, fun b hb => ?_⟩⟩
        have hlt := he b hb
        have hb' := hfirst b hb
        unfold Carousel.reachesFirst at hb' ⊢
        omega

/-- The slot that none is reached before is the answer of the search. -/
theorem nearestSlot_eq (hs : l.Pairwise (fun a b => a.2 < b.2)) (hc : ∀ e ∈ l, e.1 = slotCarrier e.2) {i : Nat}
    (hi : ∃ e ∈ l, e.2 = i) (hfirst : ∀ e ∈ l, x.reachesFirst i e.2) : nearestSlot x l = some i := by
  obtain ⟨e, he, rfl⟩ := hi
  cases hr : nearestSlot x l with
  | none => rw [nearestSlot_eq_none.1 hr] at he; cases he
  | some j =>
    obtain ⟨⟨d, hd, rfl⟩, hfirst'⟩ := nearestSlot_spec hs hc hr
    have h := hfirst d hd
    have h' := hfirst' e he
    unfold Carousel.reachesFirst at h h'
    exact congrArg some (by omega)

end

theorem Leg.rank_eq (l : Leg) : l.rank = 2 * l.steps + (if l.direction = .backward then 1 else 0) := by
  unfold Leg.rank
  cases l.direction <;> simp [Direction.code, Nat.mul_comm]

/-! ## The put-away strategy's choice (R12) -/

section
variable {s : State} {k : Nat} {zones : BitVec 16}

/-- A slot of carousel `k` is open for a zone mask (R12). -/
def State.openFor (s : State) (k : Nat) (zones : BitVec 16) (i : Nat) : Prop :=
  slotCarousel i = k ∧ slotCarrier i < (s.carousel k).carriers ∧ slotPosition i < (s.carousel k).positions
    ∧ (s.slot i).content = .empty ∧ zones.getLsbD ((s.carousel k).zone (slotCarrier i)) = true

variable (hc : (s.carousel k).carriers ≤ 96) (hp : (s.carousel k).positions ≤ 8)
include hc hp

theorem State.mem_openSlots (e : Nat × Nat) :
    e ∈ s.openSlots k zones ↔ e.1 = slotCarrier e.2 ∧ s.openFor k zones e.2 := by
  rw [State.openSlots, List.mem_filter, Carousel.mem_mappedSlots hc hp, Bool.and_eq_true, decide_eq_true_eq]
  unfold State.openFor
  constructor
  · rintro ⟨⟨h, h1, h2, h3⟩, h4, h5⟩
    rw [h] at h5
    exact ⟨h, h1, h2, h3, h4, h5⟩
  · rintro ⟨h, h1, h2, h3, h4, h5⟩
    rw [h]
    exact ⟨⟨rfl, h1, h2, h3⟩, h4, h5⟩

/-- The search among the open slots on the carriers that pass a test. -/
theorem State.nearestSlot_open_eq (q : Nat × Nat → Bool) {i : Nat} (hi : s.openFor k zones i)
    (hq : q (slotCarrier i, i) = true)
    (hfirst : ∀ j, s.openFor k zones j → q (slotCarrier j, j) = true → (s.carousel k).reachesFirst i j) :
    nearestSlot (s.carousel k) ((s.openSlots k zones).filter q) = some i := by
  have hmem : ∀ e ∈ (s.openSlots k zones).filter q, e.1 = slotCarrier e.2 ∧ s.openFor k zones e.2 :=
    fun e he => (State.mem_openSlots hc hp e).1 (List.mem_filter.1 he).1
  have hsorted : ((s.openSlots k zones).filter q).Pairwise (fun a b => a.2 < b.2) :=
    ((Carousel.mappedSlots_sorted hp).filter _).filter q
  refine nearestSlot_eq hsorted (fun e he => (hmem e he).1) ⟨(slotCarrier i, i), ?_, rfl⟩ fun e he => ?_
  · exact List.mem_filter.2 ⟨(State.mem_openSlots hc hp _).2 ⟨rfl, hi⟩, hq⟩
  · obtain ⟨hcarrier, hopen⟩ := hmem e he
    refine hfirst e.2 hopen ?_
    rw [← hcarrier]
    exact (List.mem_filter.1 he).2

theorem State.nearestSlot_open_none (q : Nat × Nat → Bool)
    (h : ∀ j, s.openFor k zones j → q (slotCarrier j, j) = false) :
    nearestSlot (s.carousel k) ((s.openSlots k zones).filter q) = none := by
  rw [nearestSlot_eq_none, List.filter_eq_nil_iff]
  intro e he
  obtain ⟨hcarrier, hopen⟩ := (State.mem_openSlots hc hp e).1 he
  have heq : e = (slotCarrier e.2, e.2) := Prod.ext hcarrier rfl
  rw [heq, h e.2 hopen]
  exact Bool.false_ne_true

theorem State.strategyChoice_none {article : Nat} {strategy : Strategy} (h : ∀ j, ¬s.openFor k zones j) :
    s.strategyChoice k article zones strategy = none := by
  have hnil : s.openSlots k zones = [] :=
    List.eq_nil_iff_forall_not_mem.2 fun e he => h e.2 ((State.mem_openSlots hc hp e).1 he).2
  cases strategy <;> simp only [State.strategyChoice, hnil] <;> rfl

theorem State.strategyChoice_nearest {article i : Nat} (hi : s.openFor k zones i)
    (hfirst : ∀ j, s.openFor k zones j → (s.carousel k).reachesFirst i j) :
    s.strategyChoice k article zones .nearest = some i := by
  have h := State.nearestSlot_open_eq hc hp (fun _ => true) hi rfl (fun j hj _ => hfirst j hj)
  rwa [List.filter_true] at h

theorem State.strategyChoice_grouped {article i : Nat} (hi : s.openFor k zones i)
    (hg : s.grouped k (slotCarrier i) article = true) (hfirst : ∀ j, s.openFor k zones j →
      s.grouped k (slotCarrier j) article = true → (s.carousel k).reachesFirst i j) :
    s.strategyChoice k article zones .grouped = some i := by
  have h := State.nearestSlot_open_eq hc hp (fun e => s.grouped k e.1 article) hi hg hfirst
  simp only [State.strategyChoice, h]

theorem State.strategyChoice_ungrouped {article i : Nat} (hi : s.openFor k zones i)
    (hn : ∀ j, s.openFor k zones j → s.grouped k (slotCarrier j) article = false)
    (hfirst : ∀ j, s.openFor k zones j → (s.carousel k).reachesFirst i j) :
    s.strategyChoice k article zones .grouped = some i := by
  have hnone := State.nearestSlot_open_none hc hp (fun e => s.grouped k e.1 article) hn
  have h := State.strategyChoice_nearest (article := article) hc hp hi hfirst
  simp only [State.strategyChoice] at h
  simp only [State.strategyChoice, hnone, h]

end

/-- A carrier is grouped where one of its eight positions holds the article. -/
theorem State.grouped_iff {s : State} {k article i : Nat} (hi : slotCarousel i = k) :
    s.grouped k (slotCarrier i) article = true ↔
      ∃ j, j / 8 = i / 8 ∧ ∃ g, (s.slot j).content.goods = some g ∧ g.article = article := by
  rw [State.grouped, List.any_eq_true]
  unfold slotCarousel at hi
  unfold slotCarrier slotIndex
  constructor
  · rintro ⟨y, hy, h⟩
    rw [List.mem_range] at hy
    refine ⟨k * 768 + i % 768 / 8 * 8 + y, by omega, ?_⟩
    split at h
    next g hg => exact ⟨g, hg, of_decide_eq_true h⟩
    next => cases h
  · rintro ⟨j, hj, g, hg, ha⟩
    have hindex : k * 768 + i % 768 / 8 * 8 + j % 8 = j := by omega
    refine ⟨j % 8, List.mem_range.2 (by omega), ?_⟩
    rw [hindex, hg]
    exact decide_eq_true ha

/-! ## The put-away choice (R11) -/

section
variable {s : State} {k tag article w y : Nat} {a : Article}

theorem State.choosePutaway_badDate (h : ¬(1 ≤ w ∧ w ≤ 53 ∧ y ≤ 99)) :
    s.choosePutaway k tag article w y = .refused .badDate := by
  rw [State.choosePutaway, if_pos (by rwa [Bool.not_eq_true', ← Bool.not_eq_true, dateValid_iff])]

variable (hd : 1 ≤ w ∧ w ≤ 53 ∧ y ≤ 99)
include hd

theorem State.choosePutaway_unknown (h : s.article article = none) :
    s.choosePutaway k tag article w y = .refused .unknownArticle := by
  simp only [State.choosePutaway, (dateValid_iff _ _).2 hd, h]
  rfl

variable (ha : s.article article = some a)
include ha

/-- The checks of a dated put-away of a known article. -/
theorem State.choosePutaway_known : s.choosePutaway k tag article w y =
    if (s.tagSlot tag).isSome then .refused .duplicateTag
    else if s.isDateAhead (ordinalOf w y) && (s.profile a.profile).refuseAhead then .refused .dateAhead
    else if !s.demandAllows article then .refused .noSpace
    else (s.strategyChoice k article a.zones (s.profile a.profile).strategy).elim (.refused .storeFull)
      (fun i => .chosen i (ordinalOf w y)) := by
  simp only [State.choosePutaway, (dateValid_iff _ _).2 hd, ha]
  cases s.strategyChoice k article a.zones (s.profile a.profile).strategy <;> rfl

theorem State.choosePutaway_duplicate (ht : s.tagSlot tag ≠ none) :
    s.choosePutaway k tag article w y = .refused .duplicateTag := by
  rw [State.choosePutaway_known hd ha, if_pos (Option.isSome_iff_ne_none.2 ht)]

variable (ht : s.tagSlot tag = none)
include ht

theorem State.choosePutaway_ahead
    (h : s.isDateAhead (ordinalOf w y) = true ∧ (s.profile a.profile).refuseAhead = true) :
    s.choosePutaway k tag article w y = .refused .dateAhead := by
  rw [State.choosePutaway_known hd ha, ht, if_neg (by exact Bool.false_ne_true), if_pos (by rwa [Bool.and_eq_true])]

variable (hahead : ¬(s.isDateAhead (ordinalOf w y) = true ∧ (s.profile a.profile).refuseAhead = true))
include hahead

theorem State.choosePutaway_noSpace (h : s.demandAllows article = false) :
    s.choosePutaway k tag article w y = .refused .noSpace := by
  rw [State.choosePutaway_known hd ha, ht, if_neg (by exact Bool.false_ne_true),
    if_neg (by rwa [Bool.and_eq_true]), if_pos (by rw [h]; rfl)]

theorem State.choosePutaway_strategy (h : s.demandAllows article = true) {r : Option Nat}
    (hr : s.strategyChoice k article a.zones (s.profile a.profile).strategy = r) :
    s.choosePutaway k tag article w y = r.elim (.refused .storeFull) (fun i => .chosen i (ordinalOf w y)) := by
  rw [State.choosePutaway_known hd ha, ht, if_neg (by exact Bool.false_ne_true),
    if_neg (by rwa [Bool.and_eq_true]), if_neg (by rw [h]; exact Bool.false_ne_true), hr]

end

theorem State.isDateAhead_iff (s : State) (p : Nat) : s.isDateAhead p = true ↔
    s.stock.calendar.isSet = true ∧ 4240 < (s.stock.calendar.ordinal + (5300 - p % 5300)) % 5300 := by
  rw [State.isDateAhead, Bool.and_eq_true, decide_eq_true_eq, State.age]

section
variable {s : State} {k tag article w y i n : Nat}

theorem State.putawayChoice_refused {o : PutawayOutcome}
    (h : s.choosePutaway k tag article w y = .refused o) :
    s.putawayChoice k tag article w y = (s, .refused o) := by
  simp only [State.putawayChoice, h]

theorem State.putawayChoice_ahead (h : s.choosePutaway k tag article w y = .chosen i n)
    (ha : s.isDateAhead n = true) : s.putawayChoice k tag article w y =
      ((s.writeSlot i ⟨.inbound ⟨tag, article, n⟩, true⟩).notify (.dateAhead k i tag article w y), .chosen i n) := by
  simp only [State.putawayChoice, h, ha, if_true]
  rfl

theorem State.putawayChoice_chosen (h : s.choosePutaway k tag article w y = .chosen i n)
    (ha : ¬s.isDateAhead n = true) : s.putawayChoice k tag article w y =
      (s.writeSlot i ⟨.inbound ⟨tag, article, n⟩, true⟩, .chosen i n) := by
  simp only [State.putawayChoice, h, ha]
  rfl

/-- A slot chosen carries the production ordinal of its date. -/
theorem State.choosePutaway_ordinal (h : s.choosePutaway k tag article w y = .chosen i n) : n = ordinalOf w y := by
  unfold State.choosePutaway at h
  dsimp only at h
  repeat' split at h
  all_goals cases h
  rfl

/-! ## The store call (R96) -/

variable {a : Putaway} (ha : (s.port k).putaway = some a)
include ha

theorem State.storeCall_atPort
    (h : (s.carousel k).state = .standing ∧ slotCarrier a.slot = (s.carousel k).atPort) :
    s.storeCall k = s.startPlacing k (slotCarrier a.slot) := by
  have hready := (s.carousel k).availability_ready_iff.2 (Or.inl h.1)
  have hr : s.storeCallRequest k (slotCarrier a.slot) = (s, .atPort none) := by
    simp only [State.storeCallRequest, hready]
    exact if_pos h
  simp only [State.storeCall, ha, hr]

theorem State.storeCall_called (hready : (s.carousel k).availability = .ready)
    (h : ¬((s.carousel k).state = .standing ∧ slotCarrier a.slot = (s.carousel k).atPort)) :
    s.storeCall k = (s.moveRequest k .storeCall (slotCarrier a.slot) ((s.carousel k).travel
      (slotCarrier a.slot))).onPort k (fun p => { p with work := .calling }) := by
  have hr : s.storeCallRequest k (slotCarrier a.slot) = (s.moveRequest k .storeCall (slotCarrier a.slot)
      ((s.carousel k).travel (slotCarrier a.slot)), .called) := by
    simp only [State.storeCallRequest, hready]
    exact if_neg h
  simp only [State.storeCall, ha, hr]

theorem State.storeCall_refused (h : (s.carousel k).availability ≠ .ready) :
    s.storeCall k = s.putawayUnavailable k a := by
  cases hr : (s.carousel k).availability with
  | unavailable => simp only [State.storeCall, ha, State.storeCallRequest, hr]
  | busy => simp only [State.storeCall, ha, State.storeCallRequest, hr]
  | ready => exact absurd hr h

end

/-- Settles O49: the checks of the put-away choice, the least of the open slots, and the store call. -/
theorem putawayIsChosenAndCalled : Obligations.PutawayIsChosenAndCalled := by
  refine ⟨?choice, ?call⟩
  case choice =>
    intro s k tag article w y p dated r
    refine ⟨State.choosePutaway_badDate, State.choosePutaway_unknown, fun a hd ha => ?_⟩
    intro ahead refused
    have hahead : s.isDateAhead (ordinalOf w y) = true ↔ ahead := s.isDateAhead_iff _
    have hrefused : (s.isDateAhead (ordinalOf w y) = true ∧ (s.profile a.profile).refuseAhead = true) ↔ refused :=
      and_congr_left fun _ => hahead
    refine ⟨State.choosePutaway_duplicate hd ha, fun ht h => State.choosePutaway_ahead hd ha ht (hrefused.2 h),
      fun ht h => State.choosePutaway_noSpace hd ha ht (mt hrefused.1 h), fun ht h hdem => ?strategy,
      fun o => State.putawayChoice_refused, fun i n hr h => ?isAhead, fun i n hr h => ?notAhead⟩
    case strategy =>
      intro x isOpen grouped legRank best hc hp
      have hopen : ∀ i, s.openFor k a.zones i ↔ isOpen i := fun i => Iff.rfl
      have hgrouped : ∀ i, isOpen i → (s.grouped k (slotCarrier i) article = true ↔ grouped i) :=
        fun i hi => State.grouped_iff hi.1
      have hfirst : ∀ i j, x.reachesFirst i j ↔ legRank i < legRank j ∨ (legRank i = legRank j ∧ i ≤ j) := by
        intro i j
        unfold Carousel.reachesFirst
        rw [Leg.rank_eq, Leg.rank_eq]
        exact Iff.rfl
      have hchosen : ∀ i, s.strategyChoice k article a.zones (s.profile a.profile).strategy = some i →
          r = .chosen i p := fun i => State.choosePutaway_strategy hd ha ht (mt hrefused.1 h) hdem
      refine ⟨fun hn => ?full, fun i hst hb => ?nearest, fun i hst hb => ?grouped, fun i hst hn hb => ?ungrouped⟩
      case full =>
        exact State.choosePutaway_strategy hd ha ht (mt hrefused.1 h) hdem (State.strategyChoice_none hc hp hn)
      case nearest =>
        refine hchosen i ?_
        rw [hst]
        exact State.strategyChoice_nearest hc hp hb.1 fun j hj => (hfirst i j).2 (hb.2 j hj)
      case grouped =>
        refine hchosen i ?_
        rw [hst]
        exact State.strategyChoice_grouped hc hp hb.1.1 ((hgrouped i hb.1.1).2 hb.1.2)
          fun j hj hg => (hfirst i j).2 (hb.2 j ⟨hj, (hgrouped j hj).1 hg⟩)
      case ungrouped =>
        refine hchosen i ?_
        rw [hst]
        exact State.strategyChoice_ungrouped hc hp hb.1
          (fun j hj => Bool.eq_false_iff.2 (mt (hgrouped j hj).1 (hn j hj))) fun j hj => (hfirst i j).2 (hb.2 j hj)
    case isAhead =>
      exact State.putawayChoice_ahead hr (by rw [State.choosePutaway_ordinal hr]; exact hahead.2 h)
    case notAhead =>
      exact State.putawayChoice_chosen hr (by rw [State.choosePutaway_ordinal hr]; exact mt hahead.1 h)
  case call =>
    intro s k a ha x c sweeps free
    have hfree : x.availability = .ready ↔ free := x.availability_ready_iff
    refine ⟨fun hst hc => State.storeCall_atPort ha ⟨hst, hc⟩,
      fun hf h => State.storeCall_called ha (hfree.2 hf) (by tauto), fun hf => ?_, rfl⟩
    intro failed
    have hcall := State.storeCall_refused ha (mt hfree.1 hf)
    refine ⟨?_, fun h => ?_⟩
    · rintro ⟨t, ht⟩
      rw [hcall, State.putawayUnavailable, State.withdraw_inbound ht]
      rfl
    · rw [hcall, State.putawayUnavailable, State.withdraw_other h]
      rfl

/-! ## Scans (R89, R91, R95, R99) -/

theorem State.stray_eq (s : State) (k : Nat) :
    s.stray k = s.onPort k (fun p => { p with strayCount := min 65535 (p.strayCount + 1) }) := by
  simp only [State.stray, saturate_eq_min]

theorem State.refuseScan_eq (s : State) (k : Nat) : s.refuseScan k = (s.onPort k (fun p => { p with
    wrongTyreCount := min 65535 (p.wrongTyreCount + 1) })).setMessage k .wrongTyre := by
  simp only [State.refuseScan, saturate_eq_min]

section
variable {s : State} {k : CarouselNo} {tag a w y : Nat} {x : Presentation}

theorem State.scanTag_zero : s.scanTag k 0 a w y = s.stray k := if_pos rfl

variable (h0 : tag ≠ 0)
include h0

theorem State.scanTag_presenting (h : (s.port k).work = .presenting x) :
    s.scanTag k tag a w y = s.presentScan k x tag := by
  simp only [State.scanTag, if_neg h0, h]

theorem State.scanTag_store (h : (s.port k).work = .idle) (hm : (s.port k).mode = .store) :
    s.scanTag k tag a w y = s.beginPutaway k tag a w y := by
  simp only [State.scanTag, if_neg h0, h, hm]

theorem State.scanTag_closed (h : ∀ x, (s.port k).work ≠ .presenting x) (hm : (s.port k).mode = .closed) :
    s.scanTag k tag a w y = s.stray k := by
  simp only [State.scanTag, if_neg h0, hm]
  cases hw : (s.port k).work with
  | presenting x => exact absurd hw (h x)
  | _ => rfl

theorem State.scanTag_wait (h : ∀ x, (s.port k).work ≠ .presenting x)
    (hm : (s.port k).mode = .pick ∨ ((s.port k).mode = .store ∧ (s.port k).work ≠ .idle)) :
    s.scanTag k tag a w y = s.strayWait k := by
  simp only [State.scanTag, if_neg h0]
  cases hw : (s.port k).work with
  | presenting x => exact absurd hw (h x)
  | idle =>
    rcases hm with hm | ⟨_, hn⟩
    · rw [hm]
    · exact absurd hw hn
  | calling => rcases hm with hm | ⟨hm, _⟩ <;> rw [hm]
  | placing c => rcases hm with hm | ⟨hm, _⟩ <;> rw [hm]

end

section
variable {s : State} {k : CarouselNo} {tag a w y i : Nat} {x : Presentation}

theorem State.beginPutaway_chosen {n : Nat} {t : State} (h : s.putawayChoice k tag a w y = (t, .chosen i n)) :
    s.beginPutaway k tag a w y = (t.setPutaway k ⟨⟨tag, a, n⟩, i⟩).storeCall k := by
  simp only [State.beginPutaway, h]

theorem State.beginPutaway_refused {o : PutawayOutcome} {t : State}
    (h : s.putawayChoice k tag a w y = (t, .refused o)) : s.beginPutaway k tag a w y =
      (t.setMessage k o.message).notify (.putawayEnded k tag a w y none .refused (some o)) := by
  simp only [State.beginPutaway, h]

/-- The tag is recorded on the presented carrier, at slot `i`. -/
def State.scannedAt (s : State) (k : CarouselNo) (x : Presentation) (tag i : Nat) : Prop :=
  s.tagSlot tag = some i ∧ slotCarousel i = k ∧ slotCarrier i = x.carrier

theorem State.presentScan_elsewhere (h : ∀ i, ¬s.scannedAt k x tag i) : s.presentScan k x tag = s.refuseScan k := by
  unfold State.presentScan
  split
  · rfl
  next i hi => exact if_neg fun ⟨hk, hc⟩ => h i ⟨hi, hk, hc⟩

theorem State.presentScan_here (h : s.scannedAt k x tag i) : s.presentScan k x tag = s.scanOnCarrier k x tag i := by
  obtain ⟨hi, hk, hc⟩ := h
  simp only [State.presentScan, hi]
  exact if_pos ⟨hk, hc⟩

theorem State.scanOnCarrier_task {t : PickTask} (h : x.taskAt (slotPosition i) = some t) :
    s.scanOnCarrier k x tag i = s.hand [.pickRequest k tag t.order t.line] := by
  simp only [State.scanOnCarrier, h]

theorem State.scanOnCarrier_notStored (h : x.taskAt (slotPosition i) = none)
    (hn : ∀ t, (s.slot i).content ≠ .stored t) : s.scanOnCarrier k x tag i = s.refuseScan k := by
  simp only [State.scanOnCarrier, h]
  cases hc : (s.slot i).content with
  | stored t => exact absurd hc (hn t)
  | _ => rfl

theorem State.scanOnCarrier_stored {t : Tyre} (h : x.taskAt (slotPosition i) = none)
    (hc : (s.slot i).content = .stored t) :
    s.scanOnCarrier k x tag i = s.considerSubstitution k x i t.article := by
  simp only [State.scanOnCarrier, h, hc]

theorem State.substitutes_iff (s : State) (article : Nat) : s.substitutes article = true ↔
    ∃ r, s.article article = some r ∧ (s.profile r.profile).substitute = true := by
  unfold State.substitutes
  cases s.article article <;> simp

theorem State.taskArticle_iff (s : State) (t : PickTask) (article : Nat) : s.taskArticle t = some article ↔
    ∃ l, s.findLine t.order t.line = some l ∧ l.article = article := by
  rw [State.taskArticle, Option.map_eq_some_iff]

theorem State.considerSubstitution_refused {article : Nat}
    (h : ¬s.substitutes article = true ∨ ∀ t ∈ x.tasks, s.taskArticle t ≠ some article) :
    s.considerSubstitution k x i article = s.refuseScan k := by
  have hnone : s.taskToGive x article = none := by
    unfold State.taskToGive
    rcases h with h | h
    · exact if_neg h
    · split
      · exact List.find?_eq_none.2 fun t ht => by rw [decide_eq_true_eq]; exact h t ht
      · rfl
  simp only [State.considerSubstitution, hnone]

theorem State.considerSubstitution_asked {article : Nat} {before after : List PickTask} {t : PickTask}
    (hs : s.substitutes article = true) (hx : x.tasks = before ++ t :: after)
    (hb : ∀ z ∈ before, s.taskArticle z ≠ some article) (ht : s.taskArticle t = some article) :
    s.considerSubstitution k x i article =
      s.hand [.substitutionRequest k i (slotIndex k x.carrier t.position)] := by
  have hsome : s.taskToGive x article = some t := by
    rw [State.taskToGive, if_pos hs, List.find?_eq_some_iff_append]
    exact ⟨decide_eq_true ht, before, after, hx, fun z hz => by rw [decide_eq_false (hb z hz)]; rfl⟩
  simp only [State.considerSubstitution, hsome]

end

/-- Settles O48: a SCAN by the port's mode, its work, and what stands at the slot that records the tag. -/
theorem scansAreTaken : Obligations.ScansAreTaken := by
  intro s k tag a w y hs e p u stray wrong
  have hstray : u.stray k = stray := u.stray_eq k
  have hwrong : u.refuseScan k = wrong := u.refuseScan_eq k
  unfold e
  rw [exec_scan]
  refine ⟨?zero, fun h0 h hm => event_gives hs ((State.scanTag_closed (s := u) h0 h hm).trans hstray),
    fun h0 h hm => event_gives hs ?wait, fun h0 hw hm => ⟨fun i n t h => ?chosen, fun o t h => ?refused⟩,
    fun x h0 hw => ?presented⟩
  case zero =>
    rintro rfl
    exact event_gives hs (State.scanTag_zero.trans hstray)
  case wait => exact (State.scanTag_wait (s := u) h0 h hm).trans (congrArg (fun t => State.setMessage t k .wait) hstray)
  case chosen => exact event_gives hs ((State.scanTag_store (s := u) h0 hw hm).trans (State.beginPutaway_chosen h))
  case refused =>
    have hrefused := (State.scanTag_store (s := u) h0 hw hm).trans (State.beginPutaway_refused h)
    refine event_gives hs (hrefused.trans ?_)
    cases o <;> rfl
  case presented =>
    intro here tasked giveable ofArticle
    have hscan : u.scanTag k tag a w y = u.presentScan k x tag := State.scanTag_presenting h0 hw
    have hhere : ∀ i, u.scannedAt k x tag i ↔ here i := fun i => Iff.rfl
    have htasked : ∀ i, (∀ t, ¬tasked i t) → x.taskAt (slotPosition i) = none :=
      fun i => Option.eq_none_iff_forall_ne_some.2
    have hgive : ∀ article, u.substitutes article = true ↔ giveable article := u.substitutes_iff
    have hof : ∀ article t, u.taskArticle t = some article ↔ ofArticle article t :=
      fun article t => u.taskArticle_iff t article
    refine ⟨fun hn => event_gives hs ?_, fun i t hi ht => event_gives hs ?_, fun i hi hn hc => event_gives hs ?_,
      fun i t hi hn hc => ⟨fun h => event_gives hs ?_, fun before r after hg hx hb hr => event_gives hs ?_⟩⟩
    · rw [hscan, State.presentScan_elsewhere (s := u) hn, hwrong]
    · rw [hscan, State.presentScan_here (s := u) hi, State.scanOnCarrier_task ht]
    · rw [hscan, State.presentScan_here (s := u) hi, State.scanOnCarrier_notStored (s := u) (htasked i hn) hc, hwrong]
    · rw [hscan, State.presentScan_here (s := u) hi, State.scanOnCarrier_stored (s := u) (htasked i hn) hc,
        State.considerSubstitution_refused, hwrong]
      exact h.imp (mt (hgive _).1) fun h t ht => mt (hof _ t).1 (h t ht)
    · rw [hscan, State.presentScan_here (s := u) hi, State.scanOnCarrier_stored (s := u) (htasked i hn) hc,
        State.considerSubstitution_asked ((hgive _).2 hg) hx (fun z hz => mt (hof _ z).1 (hb z hz)) ((hof _ r).2 hr)]
      rfl

/-! ## Placements (R13, R14, R97) -/

section
variable {s : State} {k c i x : Nat} {a : Putaway} {t : Tyre}

theorem State.placedReport_stray (h : (∀ c, (s.port k).work ≠ .placing c) ∨ (s.carousel k).positions ≤ x) :
    s.placedReport k x = s.stray k := by
  unfold State.placedReport
  split
  next c hc =>
    rcases h with h | h
    · exact absurd hc (h c)
    · exact if_neg (Nat.not_lt.2 h)
  all_goals rfl

theorem State.placedReport_placing (hw : (s.port k).work = .placing c) (hx : x < (s.carousel k).positions)
    (ha : (s.port k).putaway = some a) :
    s.placedReport k x = ((s.placement a.slot (slotIndex k c x)).map (fun t => (t.clearPutaway k).toIdle k)).getD s := by
  simp only [State.placedReport, hw, if_pos hx, State.placeAt, ha]
  cases s.placement a.slot (slotIndex k c x) <;> rfl

theorem State.placement_withdrawn (h : ∀ t, (s.slot i).content ≠ .inbound t) : s.placement i x = none := by
  unfold State.placement
  split
  next t ht => exact absurd ht (h t)
  all_goals rfl

variable (h : (s.slot i).content = .inbound t)
include h

theorem State.placement_home :
    s.placement i i = some ((s.writeSlot i ⟨.stored t, true⟩).hand [.wakeUp t.article]) := by
  simp only [State.placement, h, if_true]
  rfl

theorem State.placement_empty (hx : x ≠ i) (he : (s.slot x).content = .empty) : s.placement i x =
    some (((s.writeSlot x ⟨.stored t, true⟩).writeSlot i ⟨.empty, true⟩).hand [.wakeUp t.article]) := by
  simp only [State.placement, h]
  rw [if_neg hx, if_pos he]
  rfl

theorem State.placement_conflict (hx : x ≠ i) (he : (s.slot x).content ≠ .empty) : s.placement i x =
    some ((((s.cancelReservation x).logFinding x .displaced (s.slot x).content.tag (some t.tag) none).writeSlot x
      ⟨.held (.conflict t), true⟩).writeSlot i ⟨.empty, true⟩) := by
  simp only [State.placement, h]
  rw [if_neg hx, if_neg he]
  rfl

end

/-! ## What the Stock Unit tells the port (R98) -/

theorem State.writeSlot_port_work (s : State) (i : Nat) (x : Slot) (j : Nat) :
    ((s.writeSlot i x).port j).work = (s.port j).work := by
  unfold State.writeSlot State.rebuild
  split
  · split
    · rfl
    · rw [State.onPort_read]
      split
      next hj => rw [hj]; rfl
      next => rfl
  · rfl

theorem State.putawayChoice_port_work (s : State) (k tag article w y j : Nat) :
    (((s.putawayChoice k tag article w y).1).port j).work = (s.port j).work := by
  unfold State.putawayChoice State.refresh
  split
  · rfl
  · dsimp only
    split
    · rw [State.notify_port, State.writeSlot_port_work]
    · rw [State.writeSlot_port_work]

section
variable {s : State} {k i j : Nat} {a : Putaway}

theorem State.withdrawnNotice_other (h : ∀ a, (s.port k).putaway = some a → a.slot ≠ i) :
    s.withdrawnNotice k i = s := by
  unfold State.withdrawnNotice
  split
  · rfl
  next a ha => exact if_pos (h a ha)

theorem State.withdrawnNotice_chosen (ha : (s.port k).putaway = some a) (hi : a.slot = i) {n : Nat} {t : State}
    (h : s.putawayChoice k a.tyre.tag a.tyre.article (weekOf a.tyre.ordinal) (yearOf a.tyre.ordinal)
      = (t, .chosen j n)) : s.withdrawnNotice k i = t.rechoose k a j := by
  simp only [State.withdrawnNotice, ha, h]
  exact if_neg (not_not.2 hi)

theorem State.withdrawnNotice_refused (ha : (s.port k).putaway = some a) (hi : a.slot = i) {o : PutawayOutcome}
    {t : State} (h : s.putawayChoice k a.tyre.tag a.tyre.article (weekOf a.tyre.ordinal) (yearOf a.tyre.ordinal)
      = (t, .refused o)) : s.withdrawnNotice k i = (((t.clearPutaway k).setMessage k o.message).notify
        (a.endedNotice k i .noSlot (some o))).toIdle k := by
  subst hi
  simp only [State.withdrawnNotice, ha, h]
  exact if_neg (not_not.2 rfl)

theorem State.foundElsewhere_other (h : ∀ a, (s.port k).putaway = some a → a.slot ≠ i) :
    s.foundElsewhere k i j = s := by
  unfold State.foundElsewhere
  split
  · rfl
  next a ha => exact if_pos (h a ha)

theorem State.foundElsewhere_own (ha : (s.port k).putaway = some a) (hi : a.slot = i) : s.foundElsewhere k i j =
    (((s.clearPutaway k).darken k .none).notify (a.endedNotice k j .foundElsewhere none)).toIdle k := by
  simp only [State.foundElsewhere, ha]
  exact if_neg (not_not.2 hi)

theorem State.rechoose_calling (h : (s.port k).work = .calling) :
    s.rechoose k a j = s.setPutaway k { a with slot := j } := by
  simp only [State.rechoose, h]

theorem State.rechoose_placing {c : Nat} (h : (s.port k).work = .placing c) : s.rechoose k a j =
    if slotCarrier j = c then (s.setPutaway k { a with slot := j }).rebuild k
    else ((s.setPutaway k { a with slot := j }).onPort k (fun p => { p with work := .idle, timer := none })).storeCall
      k := by
  simp only [State.rechoose, h]

end

/-- Settles O50: PLACED by the slot where the tyre stands, and what the Stock Unit tells the port. -/
theorem placementsComplete : Obligations.PlacementsComplete := by
  refine ⟨fun s k x hs => ?placed, fun s k i hs => ?withdrawn, fun s k i j hs => ?found⟩
  case placed =>
    intro e u p done counted
    unfold e
    rw [exec_placed]
    refine ⟨fun h => event_gives hs ((State.placedReport_stray (s := u) h).trans (u.stray_eq k)),
      fun c a hw hx ha => ?_⟩
    intro spot
    have hplaced := State.placedReport_placing (s := u) hw hx ha
    refine ⟨fun h => event_gives hs ?_, fun t ht => ⟨fun hi => event_gives hs ?_, fun hi he => event_gives hs ?_,
      fun hi he => event_gives hs ?_⟩⟩
    · rw [hplaced, State.placement_withdrawn (s := u) h]; rfl
    · have hhome := State.placement_home (s := u) ht
      rw [hplaced, show slotIndex k c x = a.slot from hi, hhome, hi]; rfl
    · have hempty := State.placement_empty (s := u) (x := slotIndex k c x) ht hi he
      rw [hplaced, hempty]
      exact congrArg (fun t => (State.clearPutaway t k).toIdle k) rfl
    · have hconflict := State.placement_conflict (s := u) (x := slotIndex k c x) ht hi he
      rw [hplaced, hconflict, Option.map_some, Option.getD_some]
      exact congrArg (fun t => (State.clearPutaway t k).toIdle k) rfl
  case withdrawn =>
    intro e u p
    unfold e
    rw [exec_putawayWithdrawn]
    refine ⟨fun h => event_gives hs (State.withdrawnNotice_other (s := u) h), fun a ha hi => ?_⟩
    intro asked
    refine ⟨fun j n t h => ?_, fun o t h => ?_⟩
    · intro moved
      have hwork : (t.port k).work = p.work := by
        have hchoice := u.putawayChoice_port_work k a.tyre.tag a.tyre.article (weekOf a.tyre.ordinal)
          (yearOf a.tyre.ordinal) k
        rwa [show u.putawayChoice k _ _ (weekOf a.tyre.ordinal) (yearOf a.tyre.ordinal) = _ from h] at hchoice
      have hrechoose : u.withdrawnNotice k i = t.rechoose k a j := State.withdrawnNotice_chosen (s := u) ha hi h
      refine ⟨fun hw => event_gives hs (hrechoose.trans (State.rechoose_calling (hwork.trans hw))),
        fun c hw hj => event_gives hs ?_, fun c hw hj => event_gives hs ?_⟩
      · rw [hrechoose, State.rechoose_placing (hwork.trans hw)]; exact if_pos hj
      · rw [hrechoose, State.rechoose_placing (hwork.trans hw)]; exact if_neg hj
    · refine event_gives hs ((State.withdrawnNotice_refused (s := u) ha hi h).trans ?_)
      cases o <;> rfl
  case found =>
    intro e u
    unfold e
    rw [exec_putawayFoundElsewhere]
    exact ⟨fun h => event_gives hs (State.foundElsewhere_other (s := u) h),
      fun a ha hi => event_gives hs (State.foundElsewhere_own (s := u) ha hi)⟩

end Sys2Proof.Machine

/-!
# The family of picks and selections: O51, O52, O53, O54

The searches of a planning step (the article's list, the first run that fits, the best offer) are characterised by
what they return; picks, substitutions and releases then follow the content of their slots.
-/

namespace Sys2Proof.Machine

/-! ## Spreads (R37) -/

theorem foldl_max_spec (l : List Nat) (p : Nat) :
    l.foldl max p ∈ p :: l ∧ ∀ x ∈ p :: l, x ≤ l.foldl max p := by
  induction l generalizing p with
  | nil => simp
  | cons y l ih =>
    obtain ⟨hm, hle⟩ := ih (max p y)
    rw [List.foldl_cons]
    constructor
    · rcases List.mem_cons.1 hm with h | h
      · rw [h]; rcases max_choice p y with h' | h' <;> simp [h']
      · exact List.mem_cons_of_mem p (List.mem_cons_of_mem y h)
    · have htop := hle _ List.mem_cons_self
      intro x hx
      rcases List.mem_cons.1 hx with rfl | hx
      · exact (le_max_left _ y).trans htop
      · rcases List.mem_cons.1 hx with rfl | hx
        · exact (le_max_right p _).trans htop
        · exact hle x (List.mem_cons_of_mem _ hx)

theorem foldl_min_spec (l : List Nat) (p : Nat) :
    l.foldl min p ∈ p :: l ∧ ∀ x ∈ p :: l, l.foldl min p ≤ x := by
  induction l generalizing p with
  | nil => simp
  | cons y l ih =>
    obtain ⟨hm, hle⟩ := ih (min p y)
    rw [List.foldl_cons]
    constructor
    · rcases List.mem_cons.1 hm with h | h
      · rw [h]; rcases min_choice p y with h' | h' <;> simp [h']
      · exact List.mem_cons_of_mem p (List.mem_cons_of_mem y h)
    · have hbottom := hle _ List.mem_cons_self
      intro x hx
      rcases List.mem_cons.1 hx with rfl | hx
      · exact hbottom.trans (min_le_left _ y)
      · rcases List.mem_cons.1 hx with rfl | hx
        · exact hbottom.trans (min_le_right p _)
        · exact hle x (List.mem_cons_of_mem _ hx)

/-- A spread is within a window exactly where every two members are. -/
theorem spread_le_iff (l : List Nat) (w : Nat) : spread l ≤ w ↔ ∀ a b, a ∈ l → b ∈ l → a ≤ b + w := by
  cases l with
  | nil => simp [spread]
  | cons p l =>
    obtain ⟨hmax, hle⟩ := foldl_max_spec l p
    obtain ⟨hmin, hge⟩ := foldl_min_spec l p
    rw [spread]
    constructor
    · intro h a b ha hb
      have := hle a ha
      have := hge b hb
      omega
    · intro h
      have := h _ _ hmax hmin
      omega

/-! ## The first run that fits (R37, R39) -/

/-- A run of `q` candidates that fits the window with the picked extremes. -/
def runFits (w q : Nat) (ext : Option (Nat × Nat)) (run : List Member) : Prop :=
  run.length = q ∧ spread (run.map Member.ordinal ++ extremeList ext) ≤ w

/-- The first run of a list that fits: none that fits begins before it. -/
def firstRun (w q : Nat) (ext : Option (Nat × Nat)) (cands run : List Member) : Prop :=
  ∃ before after, cands = before ++ run ++ after ∧ runFits w q ext run
    ∧ ∀ b r a, cands = b ++ r ++ a → runFits w q ext r → before.length ≤ b.length

section
variable {w q : Nat} {ext : Option (Nat × Nat)}

theorem firstWindow_take {x : Member} {rest : List Member} (h : runFits w q ext ((x :: rest).take q)) :
    firstWindow w q ext (x :: rest) = some ((x :: rest).take q) := if_pos h

theorem firstWindow_skip {x : Member} {rest : List Member} (h : ¬runFits w q ext ((x :: rest).take q)) :
    firstWindow w q ext (x :: rest) = firstWindow w q ext rest := if_neg h

theorem firstWindow_sound {cands run : List Member} (h : firstWindow w q ext cands = some run) :
    firstRun w q ext cands run := by
  induction cands with
  | nil => cases h
  | cons x rest ih =>
    by_cases hfit : runFits w q ext ((x :: rest).take q)
    · rw [firstWindow_take hfit] at h
      cases h
      exact ⟨[], (x :: rest).drop q, (List.take_append_drop q (x :: rest)).symm, hfit, fun _ _ _ _ _ => Nat.zero_le _⟩
    · rw [firstWindow_skip hfit] at h
      obtain ⟨before, after, hrest, hrun, hleast⟩ := ih h
      refine ⟨x :: before, after, by rw [hrest]; rfl, hrun, fun b r a hbra hr => ?_⟩
      cases b with
      | nil =>
        have htake : (x :: rest).take q = r := by
          rw [hbra, List.nil_append, ← hr.1, List.take_left]
        exact absurd (htake ▸ hr) hfit
      | cons y b =>
        exact Nat.succ_le_succ (hleast b r a (List.cons.inj hbra).2 hr)

theorem firstWindow_eq_none {cands : List Member} (h : ∀ b r a, cands = b ++ r ++ a → ¬runFits w q ext r) :
    firstWindow w q ext cands = none := by
  cases hr : firstWindow w q ext cands with
  | none => rfl
  | some run =>
    obtain ⟨before, after, hc, hrun, _⟩ := firstWindow_sound hr
    exact absurd hrun (h before run after hc)

/-- Where the search finds none, no run fits. -/
theorem not_runFits_of_none (hq : 0 < q) {cands : List Member} (h : firstWindow w q ext cands = none) :
    ∀ b r a, cands = b ++ r ++ a → ¬runFits w q ext r := by
  induction cands with
  | nil =>
    intro b r a hbra hr
    have hlen := congrArg List.length hbra
    rw [List.length_append, List.length_append, hr.1, List.length_nil] at hlen
    omega
  | cons x rest ih =>
    by_cases hfit : runFits w q ext ((x :: rest).take q)
    · rw [firstWindow_take hfit] at h; cases h
    · rw [firstWindow_skip hfit] at h
      intro b r a hbra hr
      cases b with
      | nil =>
        have htake : (x :: rest).take q = r := by
          rw [hbra, List.nil_append, ← hr.1, List.take_left]
        exact hfit (htake ▸ hr)
      | cons y b => exact ih h b r a (List.cons.inj hbra).2 hr

/-- The first run that fits is the answer of the search. -/
theorem firstWindow_eq {cands run : List Member} (hq : 0 < q) (h : firstRun w q ext cands run) :
    firstWindow w q ext cands = some run := by
  obtain ⟨before, after, hc, hrun, hleast⟩ := h
  cases hr : firstWindow w q ext cands with
  | none => exact absurd hrun (not_runFits_of_none hq hr before run after hc)
  | some other =>
    obtain ⟨before', after', hc', hrun', hleast'⟩ := firstWindow_sound hr
    have hlen : before.length = before'.length :=
      Nat.le_antisymm (hleast before' other after' hc' hrun') (hleast' before run after hc hrun)
    have heq : before ++ (run ++ after) = before' ++ (other ++ after') := by
      rw [← List.append_assoc, ← List.append_assoc, ← hc, ← hc']
    obtain ⟨_, htail⟩ := List.append_inj heq hlen
    rw [(List.append_inj htail (hrun.1.trans hrun'.1.symm)).1]

end

/-! ## The best of the carousels' offers (R38) -/

/-- The ordinal of an offer's first member. -/
def offerKey (run : List Member) : Nat := (run.head?.map Member.ordinal).getD 0

theorem bestOffer_mem {l : List (Option (List Member))} {run : List Member} (h : bestOffer l = some run) :
    some run ∈ l := by
  induction l generalizing run with
  | nil => cases h
  | cons o rest ih =>
    cases o with
    | none => exact List.mem_cons_of_mem _ (ih h)
    | some x =>
      rw [bestOffer] at h
      cases hr : bestOffer rest with
      | none => rw [hr] at h; cases h; exact List.mem_cons_self
      | some y =>
        rw [hr] at h
        dsimp only at h
        split at h
        · cases h; exact List.mem_cons_of_mem _ (ih hr)
        · cases h; exact List.mem_cons_self

theorem bestOffer_head {run : List Member} {later : List (Option (List Member))}
    (h : ∀ r, some r ∈ later → ¬offerKey r < offerKey run) : bestOffer (some run :: later) = some run := by
  rw [bestOffer]
  cases hr : bestOffer later with
  | none => rfl
  | some y => exact if_neg (h y (bestOffer_mem hr))

/-- The best offer begins below those before it, and none after it begins below it. -/
theorem bestOffer_eq {first later : List (Option (List Member))} {run : List Member}
    (hf : ∀ r, some r ∈ first → offerKey run < offerKey r) (hl : ∀ r, some r ∈ later → ¬offerKey r < offerKey run) :
    bestOffer (first ++ some run :: later) = some run := by
  induction first with
  | nil => exact bestOffer_head hl
  | cons o first ih =>
    have hrest := ih fun r hr => hf r (List.mem_cons_of_mem o hr)
    cases o with
    | none => exact hrest
    | some x =>
      rw [List.cons_append, bestOffer, hrest]
      exact if_pos (hf x List.mem_cons_self)

theorem bestOffer_eq_none {l : List (Option (List Member))} (h : ∀ r, some r ∉ l) : bestOffer l = none :=
  Option.eq_none_iff_forall_ne_some.2 fun r hr => h r (bestOffer_mem hr)

/-- The offer of carousel `k` is chosen where no other carousel's begins below it, nor a lower one's with it. -/
theorem bestOffer_carousels {offer : Nat → Option (List Member)} {k : Nat} {run : List Member} (hk : k < 8)
    (ho : offer k = some run) (h : ∀ j < 8, ∀ r, offer j = some r →
      offerKey run < offerKey r ∨ (offerKey run = offerKey r ∧ k ≤ j)) :
    bestOffer (carouselNumbers.map offer) = some run := by
  obtain ⟨first, later, hsplit⟩ := List.append_of_mem (List.mem_range.2 hk)
  have hsorted : (first ++ k :: later).Pairwise (· < ·) := hsplit ▸ List.pairwise_lt_range
  obtain ⟨_, _, hfirst⟩ := List.pairwise_append.1 hsorted
  have hmem : ∀ j, j ∈ first ++ k :: later → j < 8 := fun j hj => List.mem_range.1 (hsplit ▸ hj)
  rw [carouselNumbers, hsplit, List.map_append, List.map_cons, ho]
  refine bestOffer_eq (fun r hr => ?_) (fun r hr => ?_)
  · obtain ⟨j, hj, hr⟩ := List.mem_map.1 hr
    have hlt := hfirst j hj k List.mem_cons_self
    have := h j (hmem j (List.mem_append_left _ hj)) r hr
    omega
  · obtain ⟨j, hj, hr⟩ := List.mem_map.1 hr
    have := h j (hmem j (List.mem_append_right _ (List.mem_cons_of_mem k hj))) r hr
    omega

/-! ## The selection (R36 to R40) -/

theorem Line.searches_iff (l : Line) :
    l.searches = true ↔ ¬(l.rule = .any ∨ (l.rule = .matchingOrOldest ∧ l.fellBack = true)) := by
  unfold Line.searches
  cases l.rule <;> simp

section
variable {l : Line} {c : Captured} {q : Nat} {cands : List Member} (hq : 0 < q)
include hq

theorem Line.select_oldest (h : l.searches = false) : l.select c q cands = (cands.take q, false) := by
  rw [Line.select, if_neg (Nat.ne_of_gt hq), if_pos (by rw [h]; rfl)]

theorem Line.select_found (h : l.searches = true) {run : List Member}
    (hr : searchWindow c q l.extremes cands = some run) : l.select c q cands = (run, false) := by
  rw [Line.select, if_neg (Nat.ne_of_gt hq), if_neg (by rw [h]; exact Bool.false_ne_true), hr]

theorem Line.select_nothing (h : l.searches = true) (hr : searchWindow c q l.extremes cands = none)
    (hn : ¬(l.rule = .matchingOrOldest ∧ cands ≠ [])) : l.select c q cands = ([], false) := by
  rw [Line.select, if_neg (Nat.ne_of_gt hq), if_neg (by rw [h]; exact Bool.false_ne_true), hr]
  exact if_neg hn

theorem Line.select_fallsBack (h : l.searches = true) (hr : searchWindow c q l.extremes cands = none)
    (hn : l.rule = .matchingOrOldest ∧ cands ≠ []) : l.select c q cands = (cands.take q, true) := by
  rw [Line.select, if_neg (Nat.ne_of_gt hq), if_neg (by rw [h]; exact Bool.false_ne_true), hr]
  exact if_pos hn

end

theorem offerKey_of_head {run : List Member} {x : Member} (h : run.head? = some x) : offerKey run = x.ordinal := by
  rw [offerKey, h]; rfl

theorem exists_head_of_firstRun {w q : Nat} {ext : Option (Nat × Nat)} {cands run : List Member} (hq : 0 < q)
    (h : firstRun w q ext cands run) : ∃ x, run.head? = some x := by
  obtain ⟨_, _, _, ⟨hlen, _⟩, _⟩ := h
  cases run with
  | nil => rw [← hlen] at hq; cases hq
  | cons x rest => exact ⟨x, rfl⟩

/-- Settles O53: the oldest candidates, or the first run that fits, or the best of the carousels' offers. -/
theorem setsAreSelected : Obligations.SetsAreSelected := by
  refine ⟨fun l c q cands hq => ?_, fun l c cands => rfl⟩
  intro oldest fits first none_ within found nowhere
  have hsearches : l.searches = true ↔ ¬oldest := l.searches_iff
  have hfits : ∀ run, runFits c.window q l.extremes run ↔ fits run :=
    fun run => and_congr_right fun _ => spread_le_iff _ _
  have hfirst : ∀ from_ run, firstRun c.window q l.extremes from_ run ↔ first from_ run := by
    intro from_ run
    simp only [firstRun, hfits]
    exact Iff.rfl
  have hnone : ∀ from_, none_ from_ → firstWindow c.window q l.extremes from_ = none :=
    fun from_ h => firstWindow_eq_none fun b r a hbra => mt (hfits r).1 (h b r a hbra)
  have hwindow : ∀ from_ run, firstWindow c.window q l.extremes from_ = some run ↔ first from_ run :=
    fun from_ run => ⟨fun h => (hfirst _ _).1 (firstWindow_sound h), fun h => firstWindow_eq hq ((hfirst _ _).2 h)⟩
  refine ⟨fun h => Line.select_oldest hq (Bool.eq_false_iff.2 fun hs => hsearches.1 hs h),
    fun run ho hf => Line.select_found hq (hsearches.2 ho) ?_, fun ho hn => ?_⟩
  · rcases hf with ⟨hc, hf⟩ | ⟨hc, k, hk, hf, hbest⟩
    · rw [searchWindow, hc]
      exact (hwindow cands run).2 hf
    · rw [searchWindow, hc, if_pos rfl]
      refine bestOffer_carousels hk ((hwindow (within k) run).2 hf) fun j hj r hr => ?_
      have hfj := (hwindow (within j) r).1 hr
      obtain ⟨x, hx⟩ := exists_head_of_firstRun hq ((hfirst _ _).2 hf)
      obtain ⟨y, hy⟩ := exists_head_of_firstRun hq ((hfirst _ _).2 hfj)
      rw [offerKey_of_head hx, offerKey_of_head hy]
      exact hbest j hj r hfj x y hx hy
  · have hsearch : searchWindow c q l.extremes cands = none := by
      rcases hn with ⟨hc, hn⟩ | ⟨hc, hn⟩
      · rw [searchWindow, hc]
        exact hnone cands hn
      · rw [searchWindow, hc, if_pos rfl]
        refine bestOffer_eq_none fun r hr => ?_
        obtain ⟨k, hk, hr⟩ := List.mem_map.1 hr
        rw [show firstWindow c.window q l.extremes (cands.filter (fun m => slotCarousel m.slot = k)) = none from
          hnone _ (hn k (List.mem_range.1 hk))] at hr
        cases hr
    refine ⟨fun h => Line.select_nothing hq (hsearches.2 ho) hsearch ?_,
      fun hr hc => Line.select_fallsBack hq (hsearches.2 ho) hsearch ⟨hr, hc⟩⟩
    rintro ⟨hrule, hcands⟩
    rcases h with h | h
    · rw [h] at hrule; cases hrule
    · exact hcands h

/-! ## The candidate list (R10, R35) -/

section
variable {α : Type} (key : α → Nat) {q : α → α → Prop}

/-- By key, and among equal keys as `q` has them. -/
def lexBy (q : α → α → Prop) (a b : α) : Prop := key a < key b ∨ (key a = key b ∧ q a b)

theorem insertBy_lex {x : α} {l : List α} (hl : l.Pairwise (lexBy key q)) (hx : ∀ y ∈ l, q y x) :
    (insertBy key x l).Pairwise (lexBy key q) := by
  induction l with
  | nil => exact List.pairwise_singleton _ _
  | cons z rest ih =>
    obtain ⟨hz, hrest⟩ := List.pairwise_cons.1 hl
    rw [insertBy]
    split
    next hlt =>
      refine List.pairwise_cons.2 ⟨List.forall_mem_cons.2 ⟨Or.inl hlt, fun y hy => Or.inl ?_⟩, hl⟩
      rcases hz y hy with h | ⟨h, _⟩ <;> omega
    next hge =>
      refine List.pairwise_cons.2 ⟨fun y hy => ?_, ih hrest fun y hy => hx y (List.mem_cons_of_mem z hy)⟩
      rcases (mem_insertBy key).1 hy with rfl | hy
      · rcases Nat.lt_or_eq_of_le (Nat.le_of_not_lt hge) with h | h
        · exact Or.inl h
        · exact Or.inr ⟨h, hx z List.mem_cons_self⟩
      · exact hz y hy

/-- Sorting keeps the order of equal keys. -/
theorem sortBy_lex {xs : List α} (h : xs.Pairwise q) : (sortBy key xs).Pairwise (lexBy key q) := by
  have hfold : ∀ (xs acc : List α), xs.Pairwise q → acc.Pairwise (lexBy key q) → (∀ a ∈ acc, ∀ x ∈ xs, q a x) →
      (xs.foldl (fun acc x => insertBy key x acc) acc).Pairwise (lexBy key q) := by
    intro xs
    induction xs with
    | nil => exact fun _ _ h _ => h
    | cons x xs ih =>
      intro acc hxs hacc hq
      obtain ⟨hx, hxs⟩ := List.pairwise_cons.1 hxs
      refine ih _ hxs (insertBy_lex key hacc fun y hy => hq y hy x List.mem_cons_self) fun a ha y hy => ?_
      rcases (mem_insertBy key).1 ha with rfl | ha
      · exact hx y hy
      · exact hq a ha y (List.mem_cons_of_mem x hy)
  exact hfold xs [] h .nil fun _ ha => nomatch ha

end

theorem State.ageTest_iff (s : State) (m p : Nat) : s.ageTest m p = true ↔ m = 0 ∨ s.stock.calendar.isSet = false
    ∨ 4240 < (s.stock.calendar.ordinal + (5300 - p % 5300)) % 5300
    ∨ (s.stock.calendar.ordinal + (5300 - p % 5300)) % 5300 ≤ m := by
  have hahead : s.stock.calendar.isSet = false ∨ s.isDateAhead p = true ↔
      s.stock.calendar.isSet = false ∨ 4240 < (s.stock.calendar.ordinal + (5300 - p % 5300)) % 5300 := by
    rw [State.isDateAhead_iff, ← Bool.not_eq_true]; tauto
  simp only [State.ageTest, Bool.or_eq_true, decide_eq_true_eq, Bool.not_eq_true', or_assoc]
  rw [← or_assoc (a := s.stock.calendar.isSet = false), hahead, or_assoc]
  exact Iff.rfl

theorem CarouselState.eligible_iff (x : CarouselState) :
    x.eligible = true ↔ x = .standing ∨ x = .moving ∨ x = .interrupted ∨ x = .curtainWait := by
  cases x <;> simp [CarouselState.eligible]

theorem State.eligible_iff (s : State) (m : Nat) (x : Option Nat) (e : Member) : s.eligible m x e = true ↔
    (∃ t, (s.slot e.slot).content = .stored t) ∧ (s.carousel (slotCarousel e.slot)).state.eligible = true
      ∧ x ≠ some (slotCarousel e.slot) ∧ s.ageTest m e.ordinal = true := by
  unfold State.eligible
  cases (s.slot e.slot).content <;> simp [and_assoc]

/-- The member by which a slot stands in the list of an article (R6). -/
def listedMember (a i : Nat) (x : Slot) : Option Member :=
  x.content.listed.bind (fun g => if g.article = a then some ⟨i, g.ordinal⟩ else none)

theorem listedMember_eq_some_iff {a i : Nat} {x : Slot} {e : Member} : listedMember a i x = some e ↔
    ∃ g, x.content.listed = some g ∧ g.article = a ∧ e = ⟨i, g.ordinal⟩ := by
  simp only [listedMember, Option.bind_eq_some_iff, Option.ite_none_right_eq_some, Option.some.injEq]
  exact exists_congr fun g => and_congr_right fun _ => and_congr_right fun _ => eq_comm

theorem State.articleList_eq (s : State) (a : Nat) : s.articleList a =
    sortBy Member.ordinal (s.stock.slots.filterMap (fun e => listedMember a e.1 e.2)) := by
  refine congrArg (fun f => sortBy Member.ordinal (s.stock.slots.filterMap f)) (funext fun e => ?_)
  rw [listedMember]
  cases e.2.content.listed <;> rfl

theorem State.mem_articleList {s : State} (hr : sparseRising s.stock.slots = true) (a i p : Nat) :
    ⟨i, p⟩ ∈ s.articleList a ↔
      ∃ g, (s.slot i).content.listed = some g ∧ g.article = a ∧ g.ordinal = p := by
  rw [State.articleList_eq, mem_sortBy, List.mem_filterMap]
  simp only [listedMember_eq_some_iff]
  constructor
  · rintro ⟨⟨j, x⟩, hm, g, hg, ha, he⟩
    cases he
    rw [State.slot_of_mem hr hm]
    exact ⟨g, hg, ha, rfl⟩
  · rintro ⟨g, hg, ha, rfl⟩
    have hne : s.slot i ≠ {} := by
      intro h
      rw [h] at hg
      cases hg
    exact ⟨(i, s.slot i), State.mem_of_slot hne, g, hg, ha, rfl⟩

theorem State.articleList_sorted {s : State} (hr : sparseRising s.stock.slots = true) (a : Nat) :
    (s.articleList a).Pairwise (lexBy Member.ordinal (fun e f => e.slot < f.slot)) := by
  rw [State.articleList_eq]
  refine sortBy_lex _ ((sparseRising_pairwise hr).filterMap _ fun c d hlt e he f hf => ?_)
  obtain ⟨_, _, _, rfl⟩ := listedMember_eq_some_iff.1 he
  obtain ⟨_, _, _, rfl⟩ := listedMember_eq_some_iff.1 hf
  exact hlt

/-- Settles O54: the candidates by their tests, the article's list by its order, and the age test. -/
theorem candidatesAreEligible : Obligations.CandidatesAreEligible := by
  refine ⟨fun s a m x => ?_, State.ageTest_iff⟩
  intro inService age young
  refine ⟨⟨(s.articleList a).filter (s.eligible m x), rfl, ?kept, fun e => ?member⟩,
    fun ht => ⟨State.mem_articleList ht.slotsRising a, State.articleList_sorted ht.slotsRising a⟩⟩
  case kept =>
    refine List.filter_congr fun e he => ?_
    rw [Bool.eq_iff_iff, List.contains_iff_mem, List.mem_filter]
    exact (and_iff_right he).symm
  case member =>
    rw [List.mem_filter, State.eligible_iff, CarouselState.eligible_iff, State.ageTest_iff]
    exact Iff.rfl

end Sys2Proof.Machine

/-!
# The family of picks and releases: O51, O52

A request of a port or of the Planner names slots; what it does is decided by what those slots hold. What a pick then
does at the line, the lane, the port and the order is stated function by function.
-/

namespace Sys2Proof.Machine

/-! ## Orders and lines found after a change (R27, R31) -/

section
variable {s : State} {id n : Nat}

theorem State.findOrder_onOrder {f : Order → Order} (hf : ∀ o, (f o).id = o.id) (j : Nat) :
    (s.onOrder id f).findOrder j = (s.findOrder j).map (fun o => if o.id = id then f o else o) := by
  have hid : ∀ o : Order, (if o.id = id then f o else o).id = o.id := by
    intro o
    split
    · exact hf o
    · rfl
  show (s.planner.orders.map _).find? _ = _
  rw [List.find?_map]
  refine congrArg (Option.map _) (congrArg (fun p => s.planner.orders.find? p) (funext fun o => ?_))
  exact congrArg (fun i => decide (i = j)) (hid o)

theorem State.findOrder_id {o : Order} (h : s.findOrder id = some o) : o.id = id :=
  of_decide_eq_true (List.find?_some (p := fun o : Order => decide (o.id = id)) h)

theorem State.onOrder_missing {f : Order → Order} (h : s.findOrder id = none) : s.onOrder id f = s := by
  have hmap : s.planner.orders.map (fun o => if o.id = id then f o else o) = s.planner.orders := by
    refine (List.map_congr_left fun o ho => ?_).trans (List.map_id _)
    exact if_neg fun hid => List.find?_eq_none.1 h o ho (decide_eq_true hid)
  unfold State.onOrder
  rw [hmap]
  rfl

/-! ## An order's new state (R29, R113) -/

theorem State.setOrderState_lane {o : Order} {j : Nat} {x : OrderState} (h : s.findOrder id = some o)
    (hj : o.lane = some j) : s.setOrderState id x = (s.onOrder id (fun o => { o with state := x })).judgeLane j := by
  have hfound : (s.onOrder id (fun o => { o with state := x })).findOrder id = some { o with state := x } := by
    rw [State.findOrder_onOrder (f := fun o => { o with state := x }) fun _ => rfl, h]
    exact congrArg some (if_pos (State.findOrder_id h))
  simp only [State.setOrderState, hfound, State.judgeLaneOf, hj]

theorem State.setOrderState_noLane {o : Order} {x : OrderState} (h : s.findOrder id = some o) (hj : o.lane = none) :
    s.setOrderState id x = s.onOrder id (fun o => { o with state := x }) := by
  have hfound : (s.onOrder id (fun o => { o with state := x })).findOrder id = some { o with state := x } := by
    rw [State.findOrder_onOrder (f := fun o => { o with state := x }) fun _ => rfl, h]
    exact congrArg some (if_pos (State.findOrder_id h))
  simp only [State.setOrderState, hfound, State.judgeLaneOf, hj]

theorem State.setOrderState_missing {x : OrderState} (h : s.findOrder id = none) : s.setOrderState id x = s := by
  simp only [State.setOrderState, State.onOrder_missing h, h]

/-! ## Completion (R49) -/

theorem Line.settled_iff (l : Line) : l.settled = true ↔ l.state = .done ∨ l.state = .short := by
  simp only [Line.settled, Bool.or_eq_true, decide_eq_true_eq]

theorem Order.completable_iff (o : Order) : o.completable = true ↔
    o.state = .active ∧ (∀ l ∈ o.lines, l.state = .done ∨ l.state = .short) ∧ o.unsettled = 0 := by
  simp only [Order.completable, Bool.and_eq_true, decide_eq_true_eq, List.all_eq_true, Line.settled_iff, and_assoc]

theorem State.completionTest_ended {o : Order} (h : s.findOrder id = some o) (he : o.completable = true) :
    s.completionTest id = (s.notify o.completeNotice).setOrderState id .complete := by
  simp only [State.completionTest, h, he, if_true]

theorem State.completionTest_same (h : ∀ o, s.findOrder id = some o → ¬o.completable = true) :
    s.completionTest id = s := by
  unfold State.completionTest
  split
  next o ho => exact if_neg (h o ho)
  next => rfl

theorem State.testIfSettled_same (h : ∀ l, s.findLine id n = some l → ¬l.settled = true) :
    s.testIfSettled id n = s := by
  unfold State.testIfSettled
  split
  next l hl => exact if_neg (h l hl)
  next => rfl

theorem State.testIfSettled_settled {l : Line} (h : s.findLine id n = some l) (hl : l.settled = true) :
    s.testIfSettled id n = s.completionTest id := by
  simp only [State.testIfSettled, h, hl, if_true]

/-! ## The lane after a pick (R108) -/

theorem State.joinExpected_lane {o : Order} {j tag : Nat} (h : s.findOrder id = some o) (hj : o.lane = some j) :
    s.joinExpected id tag = (s.onLane j (fun l => { l with expected := l.expected ++
      [⟨tag, id, .inTransit, some (s.lanes.transitTimeout * 1000), s.now⟩] })).judgeLane j := by
  simp only [State.joinExpected, h, Option.bind_some, hj]

theorem State.joinExpected_noLane {tag : Nat} (h : ∀ o, s.findOrder id = some o → o.lane = none) :
    s.joinExpected id tag = s := by
  have hnone : (s.findOrder id).bind Order.lane = none := by
    cases ho : s.findOrder id with
    | none => rfl
    | some o => exact h o ho
  simp only [State.joinExpected, hnone]

end

/-! ## The task of a slot leaves (R17, R58, R90 to R92) -/

/-- The port of slot `i` presents `pr`, with the task of `i` in it. -/
def State.presentsTask (s : State) (i : Nat) (pr : Presentation) : Prop :=
  (s.port (slotCarousel i)).work = .presenting pr ∧ pr.carrier = slotCarrier i
    ∧ ∃ t ∈ pr.tasks, t.position = slotPosition i

section
variable {s : State} {i : Nat} {pr : Presentation}

theorem Presentation.holdsTask_iff (pr : Presentation) (i : Nat) : pr.holdsTask i = true ↔
    pr.carrier = slotCarrier i ∧ ∃ t ∈ pr.tasks, t.position = slotPosition i := by
  simp only [Presentation.holdsTask, Bool.and_eq_true, decide_eq_true_eq, List.any_eq_true]

theorem State.removeTask_stops (h : ∀ pr, ¬s.presentsTask i pr) :
    s.removeTask i = s.onCarousel (slotCarousel i) (fun c => { c with
      stops := dropTask (slotCarrier i) (slotPosition i) c.stops }) := by
  unfold State.removeTask
  dsimp only
  split
  next pr hpr => exact if_neg fun hh => h pr ⟨hpr, (pr.holdsTask_iff i).1 hh⟩
  all_goals rfl

/-- The state in which a slot's task has left its presentation. -/
def State.taskLeft (s : State) (i : Nat) (pr : Presentation) : State :=
  (s.onPort (slotCarousel i) (fun p => { p with work := .presenting (pr.without i) })).rebuild (slotCarousel i)

theorem State.removeTask_presented (h : s.presentsTask i pr) : s.removeTask i =
    if (pr.without i).tasks = [] then (s.taskLeft i pr).completePresentation (slotCarousel i)
    else s.taskLeft i pr := by
  obtain ⟨hw, hh⟩ := h
  simp only [State.removeTask, hw, (pr.holdsTask_iff i).2 hh, List.isEmpty_iff, if_true]
  rfl

theorem State.donePick_absent (h : ∀ pr, ¬s.presentsTask i pr) (x : Nat) : s.donePick i x = s.removeTask i := by
  unfold State.donePick
  dsimp only
  split
  next pr hpr =>
    have hnone : pr.tasks.find? (fun t => pr.carrier = slotCarrier i && t.position = slotPosition i) = none := by
      refine List.find?_eq_none.2 fun t ht hp => h pr ?_
      rw [Bool.and_eq_true, decide_eq_true_eq, decide_eq_true_eq] at hp
      exact ⟨hpr, hp.1, t, ht, hp.2⟩
    rw [hnone]
  all_goals rfl

/-- The presentation after a slot's task is done, its position `x` marked with the task's lane. -/
def Presentation.markDone (pr : Presentation) (i x : Nat) (t : PickTask) : Presentation :=
  { pr.without i with done := sparseInsert x t.lane pr.done }

/-- The state in which a slot's task is done and the presentation's timer starts afresh. -/
def State.taskDone (s : State) (i x : Nat) (pr : Presentation) (t : PickTask) : State :=
  (s.onPort (slotCarousel i) (fun p => { p with
    work := .presenting (pr.markDone i x t), timer := some (p.timeout * 1000),
    display := { p.display with message := .none } })).rebuild (slotCarousel i)

theorem State.donePick_presented (h : s.presentsTask i pr) (x : Nat) {t : PickTask}
    (ht : pr.tasks.find? (fun t => t.position = slotPosition i) = some t) : s.donePick i x =
      if (pr.markDone i x t).tasks = [] then (s.taskDone i x pr t).completePresentation (slotCarousel i)
      else s.taskDone i x pr t := by
  obtain ⟨hw, hc, _⟩ := h
  have hfind : pr.tasks.find? (fun t => pr.carrier = slotCarrier i && t.position = slotPosition i) = some t := by
    rw [← ht]
    refine congrArg (fun p => pr.tasks.find? p) (funext fun t => ?_)
    rw [hc, decide_eq_true rfl, Bool.true_and]
  simp only [State.donePick, hw, hfind, List.isEmpty_iff]
  rfl

end

/-- Settles O52: the line's counts, the lane's entry, the completion test, the task that leaves, an order's state. -/
theorem picksReachLineLaneAndPort : Obligations.PicksReachLineLaneAndPort := by
  refine ⟨⟨fun s o n i tag p => ?counts, fun s o tag => ⟨fun x j => State.joinExpected_lane, State.joinExpected_noLane⟩,
    fun s o n => ⟨fun l hl h => State.testIfSettled_settled hl (l.settled_iff.2 h), fun h => ?unsettled⟩,
    fun s o => ?completion, fun s i => ?task⟩, fun s id x => ⟨fun o j => State.setOrderState_lane,
      fun o => State.setOrderState_noLane, State.setOrderState_missing⟩⟩
  case counts =>
    intro counted
    have hcounted : counted = (s.onLine o n (fun l => l.afterPick i p)).onOrder o
        (fun x => { x with unsettled := x.unsettled + 1 }) := by
      refine congrArg (fun f => (s.onLine o n f).onOrder o (fun x => { x with unsettled := x.unsettled + 1 }))
        (funext fun l => ?_)
      unfold Line.afterPick
      cases l.extremes <;> rfl
    rw [hcounted]
    rfl
  case unsettled =>
    refine State.testIfSettled_same fun l hl hs => ?_
    obtain ⟨hd, hsh⟩ := h l hl
    exact (l.settled_iff.1 hs).elim hd hsh
  case completion =>
    intro ended
    have hended : ∀ x, x.completable = true ↔ ended x := fun x => x.completable_iff
    exact ⟨fun x hx he => State.completionTest_ended hx ((hended x).2 he),
      fun h => State.completionTest_same fun x hx => mt (hended x).1 (h x hx)⟩
  case task =>
    intro k holds emptied
    refine ⟨State.removeTask_stops, fun pr h => ?_, fun x h => State.donePick_absent h x, fun x pr t h ht => ?_⟩
    · intro rest shown
      have hremove := State.removeTask_presented (s := s) (i := i) h
      exact ⟨fun hn => hremove.trans (if_neg hn), fun hn => hremove.trans (if_pos hn)⟩
    · intro rest shown
      have hdone := State.donePick_presented (s := s) (i := i) h x ht
      exact ⟨fun hn => hdone.trans (if_neg hn), fun hn => hdone.trans (if_pos hn)⟩

/-! ## Pick and substitution requests (R19, R20, R39) -/

section
variable {s : State} {tag o n i : Nat}

theorem State.pick_reserved {t : Tyre} (hi : s.tagSlot tag = some i) (h : (s.slot i).content = .reserved t o n) :
    s.pick tag o n = some (((s.writeSlot i ⟨.empty, true⟩).countPick o n i tag t.ordinal).donePick i (slotPosition i)) := by
  simp only [State.pick, hi, h, and_self, if_true]
  rfl

theorem State.pick_other (h : ∀ i t, s.tagSlot tag = some i → (s.slot i).content ≠ .reserved t o n) :
    s.pick tag o n = none := by
  unfold State.pick
  split
  · rfl
  next i hi =>
    split
    next t o' n' hc =>
      refine if_neg ?_
      rintro ⟨rfl, rfl⟩
      exact h i t hi hc
    all_goals rfl

theorem State.takePick_some {k : Nat} {t : State} (h : s.pick tag o n = some t) : s.takePick k tag o n = t := by
  simp only [State.takePick, h]

theorem State.takePick_none {k : Nat} (h : s.pick tag o n = none) : s.takePick k tag o n = s.refuseScan k := by
  simp only [State.takePick, h]

theorem State.takeSubstitution_some {k u r : Nat} {t : State} (h : s.substitute u r = some t) :
    s.takeSubstitution k u r = t := by
  simp only [State.takeSubstitution, h]

theorem State.takeSubstitution_none {k u r : Nat} (h : s.substitute u r = none) :
    s.takeSubstitution k u r = s.refuseScan k := by
  simp only [State.takeSubstitution, h]

theorem State.setCheck_iff (s : State) (l : Line) (given p : Nat) : s.setCheck l given p = true ↔
    ∃ c, l.captured = some c ∧ s.ageTest c.maxAge p = true
      ∧ (l.rule = .any ∨ (l.rule = .matchingOrOldest ∧ l.fellBack = true)
        ∨ ∀ a b, a ∈ p :: ((l.withoutMember given).members.map Member.ordinal ++ extremeList l.extremes) →
            b ∈ p :: ((l.withoutMember given).members.map Member.ordinal ++ extremeList l.extremes) →
            a ≤ b + c.window) := by
  unfold State.setCheck
  cases l.captured with
  | none => simp
  | some c =>
    rw [Bool.and_eq_true, Bool.or_eq_true, Bool.not_eq_true', ← Bool.not_eq_true, l.searches_iff, not_not,
      decide_eq_true_eq, spread_le_iff, or_assoc]
    simp only [Option.some.injEq, exists_eq_left']

variable {u r : Nat}

theorem State.substitute_done {tu tr : Tyre} {l : Line} (hu : (s.slot u).content = .stored tu)
    (hr : (s.slot r).content = .reserved tr o n) (hl : s.findLine o n = some l) (ha : tu.article = tr.article)
    (hc : s.setCheck l r tu.ordinal = true) : s.substitute u r =
      some (((((s.writeSlot u ⟨.empty, true⟩).recontent r (.stored tr)).countPick o n r tu.tag
        tu.ordinal).donePick r (slotPosition u)).hand [.wakeUp tr.article]) := by
  simp only [State.substitute, hu, hr, hl]
  exact if_pos ⟨ha, hc⟩

theorem State.substitute_refused (h : ∀ tu tr o n l, ¬(((s.slot u).content = .stored tu
    ∧ (s.slot r).content = .reserved tr o n ∧ s.findLine o n = some l ∧ tu.article = tr.article)
      ∧ s.setCheck l r tu.ordinal = true)) : s.substitute u r = none := by
  unfold State.substitute
  split
  next tu tr o n hu hr =>
    split
    · rfl
    next l hl => exact if_neg fun ⟨ha, hc⟩ => h tu tr o n l ⟨⟨hu, hr, hl, ha⟩, hc⟩
  · rfl

end

/-- Settles O51: releases, picks and substitutions by what their slots hold. -/
theorem reservationsAreReleasedAndPicked : Obligations.ReservationsAreReleasedAndPicked := by
  refine fun s hs => ⟨fun i o n => ?release, fun k tag o n => ?pick, fun k u r => ?substitution⟩
  case release =>
    intro e
    unfold e
    rw [exec_release]
    exact ⟨fun t h => event_gives hs (State.tryRelease_reserved (s := s.take _) h),
      fun h => event_gives hs (State.tryRelease_other (s := s.take _) h)⟩
  case pick =>
    intro e wrong
    have hwrong : (s.take e).refuseScan k = wrong := (s.take e).refuseScan_eq k
    unfold e at hwrong ⊢
    rw [exec_pickRequest]
    exact ⟨fun i t hi h => event_gives hs (State.takePick_some (State.pick_reserved (s := s.take _) hi h)),
      fun h => event_gives hs ((State.takePick_none (State.pick_other (s := s.take _) h)).trans hwrong)⟩
  case substitution =>
    intro e wrong both checked
    have hwrong : (s.take e).refuseScan k = wrong := (s.take e).refuseScan_eq k
    have hchecked : ∀ p l, s.setCheck l r p = true ↔ checked p l := fun p l => s.setCheck_iff l r p
    unfold e at hwrong ⊢
    rw [exec_substitutionRequest]
    refine ⟨fun tu tr o n l hb hc => event_gives hs (State.takeSubstitution_some ?_), fun h => event_gives hs ?_⟩
    · obtain ⟨hu, hr, hl, ha⟩ := hb
      exact State.substitute_done (s := s.take _) hu hr hl ha ((hchecked _ l).2 hc)
    · refine (State.takeSubstitution_none (State.substitute_refused (s := s.take _) fun tu tr o n l hb => ?_)).trans
        hwrong
      exact h tu tr o n l ⟨hb.1, (hchecked _ l).1 hb.2⟩

end Sys2Proof.Machine

/-!
# The family of planning: O55, O56

A step is the model's composition of a capture, a selection, a reservation and a settlement; what is proved of it as a
whole, the bound on a line's counts, follows the line through each of them.
-/

namespace Sys2Proof.Machine

/-! ## Lines found after a change (R31) -/

section
variable {s : State} {id n : Nat}

theorem Order.findLine_onLine (o : Order) {f : Line → Line} (hf : ∀ l, (f l).number = l.number) (n : Nat) :
    (o.onLine n f).findLine n = (o.findLine n).map f := by
  have hn : ∀ l : Line, (if l.number = n then f l else l).number = l.number := by
    intro l
    split
    · exact hf l
    · rfl
  show (o.lines.map _).find? _ = _
  rw [List.find?_map]
  have hfind : o.lines.find? ((fun l : Line => decide (l.number = n)) ∘ fun l => if l.number = n then f l else l)
      = o.findLine n :=
    congrArg (fun p => o.lines.find? p) (funext fun l => congrArg (fun i => decide (i = n)) (hn l))
  rw [hfind]
  cases h : o.findLine n with
  | none => rfl
  | some l =>
    have hl : l.number = n := of_decide_eq_true (List.find?_some (p := fun l : Line => decide (l.number = n)) h)
    exact congrArg some (if_pos hl)

theorem State.findLine_onLine {f : Line → Line} (hf : ∀ l, (f l).number = l.number) {l : Line}
    (h : s.findLine id n = some l) : (s.onLine id n f).findLine id n = some (f l) := by
  obtain ⟨o, ho, hl⟩ := Option.bind_eq_some_iff.1 h
  have hfound : (s.onLine id n f).findOrder id = some (o.onLine n f) := by
    refine (State.findOrder_onOrder (f := fun o => o.onLine n f) (fun _ => rfl) id).trans ?_
    rw [ho]
    exact congrArg some (if_pos (State.findOrder_id ho))
  rw [State.findLine, hfound, Option.bind_some, Order.findLine_onLine o hf, hl, Option.map_some]

theorem State.findLine_number {l : Line} (h : s.findLine id n = some l) : l.number = n := by
  obtain ⟨o, _, hl⟩ := Option.bind_eq_some_iff.1 h
  exact of_decide_eq_true (List.find?_some (p := fun l : Line => decide (l.number = n)) hl)

theorem State.findLine_of {o : Order} {l : Line} (ho : s.findOrder id = some o) (hl : o.findLine n = some l) :
    s.findLine id n = some l := by
  rw [State.findLine, ho]; exact hl

/-! ## A line's state (R32) -/

theorem Line.remainder_eq (l : Line) : l.remainder = l.quantity - (l.members.length + l.picked + l.short) := rfl

section
variable {l : Line}

theorem Line.state_waiting (hr : l.remainder ≠ 0) (hw : l.wait ≠ none) : l.state = .waiting := by
  obtain ⟨t, ht⟩ := Option.ne_none_iff_exists'.1 hw
  rw [Line.state, if_pos (Nat.pos_of_ne_zero hr), ht]

theorem Line.state_open (hr : l.remainder ≠ 0) (hw : l.wait = none) : l.state = .open := by
  rw [Line.state, if_pos (Nat.pos_of_ne_zero hr), hw]

theorem Line.state_planned (hr : l.remainder = 0) : l.state =
    if 0 < l.members.length then .reserved else if 0 < l.short then .short else .done := by
  rw [Line.state, if_neg (by omega)]
  rfl

end

/-! ## The settlement of a line (R33, R45) -/

variable {o : Order} {l : Line}

theorem State.settleLine_planned (h : s.findLine o.id n = some l) (hr : l.remainder = 0) :
    s.settleLine o n = s.onLine o.id n (fun l => { l with wait := none }) := by
  simp only [State.settleLine, h, hr, if_true]

theorem State.settleLine_hold {limit : Nat} (h : s.findLine o.id n = some l) (hr : l.remainder ≠ 0)
    (hs : o.shortage = .hold limit) : s.settleLine o n = s.onLine o.id n (Line.waits limit) := by
  simp only [State.settleLine, h, if_neg hr, hs]

theorem State.settleLine_ship (h : s.findLine o.id n = some l) (hr : l.remainder ≠ 0) (hs : o.shortage = .shipShort) :
    s.settleLine o n = s.shortLine o n .notAvailable := by
  simp only [State.settleLine, h, if_neg hr, hs]

theorem State.shortLine_eq (h : s.findLine o.id n = some l) (cause : ShortCause) :
    (s.onLine o.id n Line.runsShort).findLine o.id n = some l.runsShort
      ∧ s.shortLine o n cause = (s.onLine o.id n Line.runsShort).notify (o.shortNotice l.runsShort cause) := by
  have hfound : (s.onLine o.id n Line.runsShort).findLine o.id n = some l.runsShort :=
    State.findLine_onLine (f := Line.runsShort) (fun _ => rfl) h
  exact ⟨hfound, by simp only [State.shortLine, hfound]⟩

/-! ## Reserving (R16, R57) -/

theorem State.reserveSlot_stored {m : Member} {t : Tyre} {a b : Nat} (h : (s.slot m.slot).content = .stored t) :
    s.reserveSlot a b m = s.writeSlot m.slot ⟨.reserved t a b, (s.slot m.slot).fresh⟩ := by
  simp only [State.reserveSlot, h]
  rfl

theorem State.reserveSlot_other {m : Member} {a b : Nat} (h : ∀ t, (s.slot m.slot).content ≠ .stored t) :
    s.reserveSlot a b m = s := by
  unfold State.reserveSlot
  split
  next t ht => exact absurd ht (h t)
  all_goals rfl

theorem State.placeTask_presented {k c : Nat} {t : PickTask} {r : Presentation} (hw : (s.port k).work = .presenting r)
    (hc : r.carrier = c ∧ (s.port k).mode = .pick) : s.placeTask k c t = s.joinPresentation k r t := by
  simp only [State.placeTask, hw, hc, and_self, if_true]

theorem State.placeTask_stops {k c : Nat} {t : PickTask}
    (h : ∀ r, ¬((s.port k).work = .presenting r ∧ r.carrier = c ∧ (s.port k).mode = .pick)) :
    s.placeTask k c t = s.joinStops k c t := by
  unfold State.placeTask
  split
  next r hr => exact if_neg fun hc => h r ⟨hr, hc⟩
  all_goals rfl

theorem State.joinStops_old {k c : Nat} {t : PickTask} (h : ∃ y ∈ (s.carousel k).stops, y.carrier = c) :
    s.joinStops k c t = s.onCarousel k (fun x => { x with stops := x.stops.map (fun y =>
      if y.carrier = c then { y with tasks := addTask t y.tasks } else y) }) := by
  refine if_pos (List.any_eq_true.2 ?_)
  obtain ⟨y, hy, hc⟩ := h
  exact ⟨y, hy, decide_eq_true hc⟩

theorem State.joinStops_new {k c : Nat} {t : PickTask} (h : ∀ y ∈ (s.carousel k).stops, y.carrier ≠ c) :
    let created := s.onCarousel k (fun x => { x with stops := x.stops ++ [⟨c, [t], s.motion.creations, 0⟩] })
    let counted : State := { created with motion := { created.motion with
      creations := (s.motion.creations + 1) % 65536 } }
    s.joinStops k c t = if (s.carousel k).stops = [] then counted.autoCall k else counted := by
  intro created counted
  have hno : ¬(s.carousel k).stops.any (fun x => x.carrier = c) = true := by
    rw [List.any_eq_true]
    rintro ⟨y, hy, hc⟩
    exact h y hy (of_decide_eq_true hc)
  rw [State.joinStops, if_neg hno]
  simp only [List.isEmpty_iff]
  rfl

end

theorem insertBy_between {α : Type} (key : α → Nat) {x : α} {first rest : List α} (hf : ∀ y ∈ first, key y ≤ key x)
    (hr : ∀ y, rest.head? = some y → key x < key y) : insertBy key x (first ++ rest) = first ++ x :: rest := by
  induction first with
  | nil =>
    cases rest with
    | nil => rfl
    | cons y rest => exact if_pos (hr y rfl)
  | cons z first ih =>
    rw [List.cons_append, insertBy, if_neg (Nat.not_lt.2 (hf z List.mem_cons_self)),
      ih fun y hy => hf y (List.mem_cons_of_mem z hy)]
    rfl

/-! ## The planning step (R30, R33, R34) -/

theorem OrderState.closed_iff (x : OrderState) : x.closed = true ↔ x = .cancelled ∨ x = .shortClosed := by
  cases x <;> simp [OrderState.closed]

section
variable {s : State} {id n : Nat} {o : Order} {l : Line}

theorem State.planningStep_missing (h : ∀ o l, s.findOrder id = some o → o.findLine n ≠ some l) :
    s.planningStep id n = s := by
  unfold State.planningStep
  split
  · rfl
  next o ho =>
    split
    · rfl
    next l hl => exact absurd hl (h o l ho)

theorem State.planningStep_found (ho : s.findOrder id = some o) (hl : o.findLine n = some l) :
    s.planningStep id n = if o.state.closed then s
      else if n ≤ o.planned then (s.stepLine o n).testIfSettled id n
      else if o.state = .planning ∧ n = o.planned + 1 then (s.firstStep o l).planOn o n
      else s := by
  simp only [State.planningStep, ho, hl]

theorem State.planOn_next (h : n < o.lines.length) : s.planOn o n =
    (s.onOrder o.id (fun o => { o with planned := n })).hand [.planningStep o.id (n + 1)] := if_pos h

theorem State.planOn_last (h : o.lines.length ≤ n) : s.planOn o n =
    (((s.onOrder o.id (fun o => { o with planned := n })).setOrderState o.id .active).completionTest o.id).takeUp :=
  if_neg (Nat.not_lt.2 h)

theorem State.firstStep_unknown (h : s.article l.article = none) : s.firstStep o l =
    (s.onLine o.id l.number (fun l => { l with short := l.quantity })).notify
      (o.shortNotice { l with short := l.quantity } .unknownArticle) := by
  simp only [State.firstStep, h]

theorem State.firstStep_known {a : Article} (h : s.article l.article = some a) : s.firstStep o l =
    (s.onLine o.id l.number (fun l => { l with captured := some (s.profile a.profile).captured })).stepLine
      o l.number := by
  simp only [State.firstStep, h]

/-! ## The counts of a line after its step (R31) -/

theorem select_length_le (l : Line) (c : Captured) (q : Nat) (cands : List Member) :
    (l.select c q cands).1.length ≤ q := by
  unfold Line.select
  split
  next hq => rw [hq]; exact Nat.le_refl 0
  next hq =>
    split
    · exact List.length_take_le q cands
    next =>
      split
      next run hrun =>
        unfold searchWindow at hrun
        split at hrun
        · obtain ⟨k, _, hk⟩ := List.mem_map.1 (bestOffer_mem hrun)
          obtain ⟨_, _, _, hfit, _⟩ := firstWindow_sound hk
          exact Nat.le_of_eq hfit.1
        · obtain ⟨_, _, _, hfit, _⟩ := firstWindow_sound hrun
          exact Nat.le_of_eq hfit.1
      next =>
        split
        · exact List.length_take_le q cands
        · exact Nat.zero_le q

theorem State.findLine_congr {t : State} (h : t.planner = s.planner) : t.findLine id n = s.findLine id n := by
  simp only [State.findLine, State.findOrder, h]

theorem State.reserveSlot_planner (a b : Nat) (m : Member) : (s.reserveSlot a b m).planner = s.planner := by
  unfold State.reserveSlot
  split
  · rw [State.recontent_planner]
  all_goals rfl

theorem foldl_reserveSlot_planner (s : State) (a b : Nat) (ms : List Member) :
    (ms.foldl (fun t m => t.reserveSlot a b m) s).planner = s.planner := by
  induction ms generalizing s with
  | nil => rfl
  | cons m ms ih => rw [List.foldl_cons, ih, State.reserveSlot_planner]

theorem State.joinMember_findLine (lane window : Nat) (m : Member) (h : s.findLine id n = some l) :
    (s.joinMember id n lane window m).findLine id n = some { l with members := l.members ++ [m] } := by
  unfold State.joinMember
  rw [State.findLine_congr (State.placeTask_keeping _ _ _ _).planner]
  exact State.findLine_onLine (f := fun l => { l with members := l.members ++ [m] }) (fun _ => rfl) h

theorem foldl_joinMember_findLine (lane window : Nat) (ms : List Member) {s : State} {l : Line}
    (h : s.findLine id n = some l) :
    (ms.foldl (fun t m => t.joinMember id n lane window m) s).findLine id n
      = some { l with members := l.members ++ ms } := by
  induction ms generalizing s l with
  | nil => rw [List.foldl_nil, h, List.append_nil]
  | cons m ms ih =>
    rw [List.foldl_cons, ih (State.joinMember_findLine lane window m h)]
    simp only [List.append_assoc, List.singleton_append]

theorem State.reserveMembers_findLine (lane window : Nat) (ms : List Member) (h : s.findLine id n = some l) :
    (s.reserveMembers id n lane window ms).findLine id n = some { l with members := l.members ++ ms } :=
  foldl_joinMember_findLine lane window ms ((State.findLine_congr (foldl_reserveSlot_planner s id n ms)).trans h)

theorem State.clearMark_findLine (h : s.findLine id n = some l) :
    (s.clearMark id n).findLine id n = some { l with mark := none } := by
  unfold State.clearMark
  rw [State.findLine_congr (State.take_planner _ _)]
  exact State.findLine_onLine (f := fun l => { l with mark := none }) (fun _ => rfl) h

/-- A line's counts do not exceed its quantity (R31). -/
def Line.balanced (l : Line) : Prop := l.members.length + l.picked + l.short ≤ l.quantity

/-- A settlement leaves the line's quantity and picks, and its counts no more than the quantity. -/
theorem State.settleLine_findLine (h : s.findLine o.id n = some l) (hb : l.balanced) :
    ∃ l', (s.settleLine o n).findLine o.id n = some l' ∧ l'.quantity = l.quantity ∧ l'.picked = l.picked
      ∧ l'.balanced := by
  by_cases hr : l.remainder = 0
  · rw [State.settleLine_planned h hr]
    exact ⟨_, State.findLine_onLine (f := fun l => { l with wait := none }) (fun _ => rfl) h, rfl, rfl, hb⟩
  · cases hs : o.shortage with
    | hold limit =>
      rw [State.settleLine_hold h hr hs]
      exact ⟨_, State.findLine_onLine (f := Line.waits limit) (fun _ => rfl) h, rfl, rfl, hb⟩
    | shipShort =>
      obtain ⟨hfound, hshort⟩ := State.shortLine_eq h .notAvailable
      rw [State.settleLine_ship h hr hs, hshort, State.findLine_congr (State.notify_planner _ _)]
      refine ⟨_, hfound, rfl, rfl, ?_⟩
      have hrem := l.remainder_eq
      unfold Line.balanced at hb ⊢
      simp only [Line.runsShort]
      omega

theorem State.stepLine_uncaptured (h : s.findLine o.id n = some l) (hc : l.captured = none) : s.stepLine o n = s := by
  simp only [State.stepLine, h, hc]

theorem State.stepLine_eq {c : Captured} (h : s.findLine o.id n = some l) (hc : l.captured = some c) :
    let chosen := l.select c l.remainder (s.candidates l.article c.maxAge (l.mark.bind ReplanMark.excluded))
    s.stepLine o n = ((((s.onLine o.id n (fun l => { l with fellBack := l.fellBack || chosen.2 })).reserveMembers
      o.id n (o.lane.getD 0) c.window chosen.1).clearMark o.id n).settleLine o n) := by
  simp only [State.stepLine, h, hc]

theorem State.stepLine_findLine (h : s.findLine o.id n = some l) (hb : l.balanced) :
    ∃ l', (s.stepLine o n).findLine o.id n = some l' ∧ l'.quantity = l.quantity ∧ l'.picked = l.picked
      ∧ l'.balanced := by
  cases hc : l.captured with
  | none =>
    rw [State.stepLine_uncaptured h hc]
    exact ⟨l, h, rfl, rfl, hb⟩
  | some c =>
    rw [State.stepLine_eq h hc]
    have hlen := select_length_le l c l.remainder
      (s.candidates l.article c.maxAge (l.mark.bind ReplanMark.excluded))
    generalize l.select c l.remainder (s.candidates l.article c.maxAge (l.mark.bind ReplanMark.excluded)) = chosen
      at hlen ⊢
    have hflag := State.findLine_onLine (f := fun l => { l with fellBack := l.fellBack || chosen.2 }) (fun _ => rfl) h
    have hline := State.clearMark_findLine
      (State.reserveMembers_findLine (o.lane.getD 0) c.window chosen.1 hflag)
    have hrem := l.remainder_eq
    obtain ⟨l', hl', hquantity, hpicked, hbalanced⟩ := State.settleLine_findLine hline (by
      unfold Line.balanced at hb ⊢
      simp only [List.length_append]
      omega)
    exact ⟨l', hl', hquantity, hpicked, hbalanced⟩

end

/-- Settles O55: the planning step by the order's and the line's state, and what it does to line, slots and stops. -/
theorem planningStepsAreTaken : Obligations.PlanningStepsAreTaken := by
  refine ⟨⟨⟨fun s id n hs => ?step, fun s o n l c hl hc => ?stepLine, fun s o n l hl => ?settle,
    fun s m o n => ⟨fun t => State.reserveSlot_stored, State.reserveSlot_other⟩⟩,
    fun s k c t => ?place, ?addTask, fun s o n l => State.stepLine_findLine⟩, fun l => ?state⟩
  case step =>
    intro e u
    unfold e
    rw [exec_planningStep]
    refine ⟨fun h => event_gives hs ?same, fun o l ho hl hnc hns => ?taken⟩
    case same =>
      cases ho : s.findOrder id with
      | none => exact State.planningStep_missing (s := u) fun o l ho' => by cases ho.symm.trans ho'
      | some o =>
        cases hl : o.findLine n with
        | none =>
          refine State.planningStep_missing (s := u) fun o' l ho' hl' => ?_
          cases ho.symm.trans ho'
          cases hl.symm.trans hl'
        | some l =>
          refine (State.planningStep_found (s := u) ho hl).trans ?_
          have hclosed := o.state.closed_iff
          rcases h o l ho hl with h | h | ⟨hn, h⟩
          · exact if_pos (hclosed.2 (Or.inl h))
          · exact if_pos (hclosed.2 (Or.inr h))
          · rw [if_neg (Nat.not_le.2 hn), if_neg h, ite_self]
    case taken =>
      have hstep := State.planningStep_found (s := u) ho hl
      rw [if_neg (fun h => (o.state.closed_iff.1 h).elim hnc hns)] at hstep
      refine ⟨fun hn => event_gives hs (hstep.trans (if_pos hn)), fun hn hp hn1 => ?_⟩
      intro stepped counted
      rw [if_neg (Nat.not_le.2 hn), if_pos ⟨hp, hn1⟩] at hstep
      have hid : o.id = id := State.findOrder_id ho
      have hnumber : l.number = n := State.findLine_number (State.findLine_of ho hl)
      have hfirst : u.firstStep o l = stepped := by
        unfold stepped
        cases ha : s.article l.article with
        | none => rw [State.firstStep_unknown (s := u) ha, Order.shortNotice, hid, hnumber]
        | some a => rw [State.firstStep_known (s := u) ha, hid, hnumber]; rfl
      rw [hfirst] at hstep
      refine ⟨fun h => event_gives hs (hstep.trans ?_), fun h => event_gives hs (hstep.trans ?_)⟩
      · rw [State.planOn_next h, hid]
      · rw [State.planOn_last h, hid]
  case stepLine =>
    intro excluded r flagged task joined unmarked
    have hexcluded : excluded = l.mark.bind ReplanMark.excluded := by
      unfold excluded
      cases l.mark <;> rfl
    have hstep := State.stepLine_eq hl hc
    rw [← hexcluded] at hstep
    exact hstep
  case settle =>
    refine ⟨State.settleLine_planned hl, fun limit => State.settleLine_hold hl, State.settleLine_ship hl, rfl,
      fun cause => ?_⟩
    obtain ⟨hfound, hshort⟩ := State.shortLine_eq hl cause
    exact ⟨l.runsShort, hfound, hshort⟩
  case place =>
    intro x presented
    refine ⟨fun r ⟨hw, hc⟩ => State.placeTask_presented hw hc, fun h => ⟨fun hold => ?_, fun hnew => ?_⟩⟩
    · rw [State.placeTask_stops h, State.joinStops_old hold]
    · intro created counted
      have hjoin := (State.placeTask_stops h).trans (State.joinStops_new (t := t) hnew)
      exact ⟨fun hn => hjoin.trans (if_neg hn), fun hn => hjoin.trans (if_pos hn)⟩
  case addTask => exact fun t first rest hf hr => insertBy_between PickTask.position hf hr
  case state =>
    refine ⟨Line.state_waiting, Line.state_open, fun hr hm => ?_, fun hr hm hs => ?_, fun hr hm hs => ?_⟩
    · rw [Line.state_planned hr, if_pos (List.length_pos_iff.2 hm)]
    · rw [Line.state_planned hr, hm]
      exact if_pos (Nat.pos_of_ne_zero hs)
    · rw [Line.state_planned hr, hm, hs]
      rfl

/-! ## Replans, waits and the take-up (R30, R44 to R46) -/

section
variable {s : State} {id n : Nat} {o : Order} {l : Line}

theorem State.replan_same {cause : ReplanCause} (h : ∀ o l, s.findOrder id = some o → o.findLine n = some l →
    ¬(o.state.closed = false ∧ l.wantsReplan cause = true)) : s.replan id n cause = s := by
  unfold State.replan
  split
  · rfl
  next o ho =>
    split
    · rfl
    next l hl =>
      refine if_pos ?_
      rw [Bool.or_eq_true, Bool.not_eq_true']
      by_contra hn
      rw [not_or, Bool.not_eq_true, Bool.not_eq_false] at hn
      exact h o l ho hl hn

theorem State.replan_wanted {cause : ReplanCause} (ho : s.findOrder id = some o) (hl : o.findLine n = some l)
    (hc : o.state.closed = false) (hw : l.wantsReplan cause = true) :
    s.replan id n cause = s.handFirst (l.replanRequests id) := by
  simp only [State.replan, ho, hl, hc, hw]
  rfl

theorem Line.wantsReplan_iff (l : Line) (cause : ReplanCause) : l.wantsReplan cause = true ↔
    (cause = .mark → l.mark ≠ none) ∧ (cause = .wakeUp → l.state = .waiting) := by
  cases cause <;> simp [Line.wantsReplan, Option.isSome_iff_ne_none]

theorem Line.replanRequests_searching (h : l.searches = true) : l.replanRequests id =
    l.members.map (fun m => Instr.release m.slot id l.number) ++ [.planningStep id l.number] := by
  rw [Line.replanRequests, if_pos h]

theorem Line.replanRequests_plain (h : l.searches = false) : l.replanRequests id = [.planningStep id l.number] := by
  rw [Line.replanRequests, if_neg (by rw [h]; exact Bool.false_ne_true), List.nil_append]

theorem State.waitExpiry_same (h : ∀ o l, s.findOrder id = some o → o.findLine n = some l → l.wait = none) :
    s.waitExpiry id n = s := by
  unfold State.waitExpiry
  split
  · rfl
  next o ho =>
    split
    · rfl
    next l hl => rw [h o l ho hl]

theorem State.waitExpiry_running (ho : s.findOrder id = some o) (hl : o.findLine n = some l) (hw : l.wait ≠ none) :
    s.waitExpiry id n = (s.shortLine o n .waitExpired).testIfSettled id n := by
  obtain ⟨t, ht⟩ := Option.ne_none_iff_exists'.1 hw
  simp only [State.waitExpiry, ho, hl, ht]

theorem State.takeUp_busy (h : ∃ o ∈ s.planner.orders, o.state = .planning) : s.takeUp = s := by
  refine if_pos (List.any_eq_true.2 ?_)
  obtain ⟨o, ho, hp⟩ := h
  exact ⟨o, ho, decide_eq_true hp⟩

theorem State.planning_any (h : ∀ o ∈ s.planner.orders, o.state ≠ .planning) :
    ¬s.planner.orders.any (fun o => o.state = .planning) = true := by
  rw [List.any_eq_true]
  rintro ⟨o, ho, hp⟩
  exact h o ho (of_decide_eq_true hp)

theorem State.takeUp_none (h : ∀ o ∈ s.planner.orders, o.state ≠ .planning)
    (hq : ∀ o ∈ s.planner.orders, o.state ≠ .queued) : s.takeUp = s := by
  rw [State.takeUp, if_neg (State.planning_any h), State.intakeFirst_none hq]

theorem State.takeUp_first (h : ∀ o ∈ s.planner.orders, o.state ≠ .planning) {before after : List Order}
    (hos : s.planner.orders = before ++ o :: after) (ho : o.state = .queued)
    (hb : ∀ x ∈ before, x.state = .queued → 3 - o.priority < 3 - x.priority)
    (ha : ∀ x ∈ after, x.state = .queued → 3 - o.priority ≤ 3 - x.priority) :
    s.takeUp = (s.setOrderState o.id .planning).hand [.planningStep o.id 1] := by
  rw [State.takeUp, if_neg (State.planning_any h), State.intakeFirst_some rfl hos ho hb ha]

end

/-- Settles O56: the replans handed, the lines woken, the remainder that a wait's end counts short, the take-up. -/
theorem replansWakeUpsAndWaits : Obligations.ReplansWakeUpsAndWaits := by
  refine fun s hs => ⟨fun id n cause => ?replan, fun a => ?wakeUp, fun id n => ?expiry, State.takeUp_busy,
    fun h => ⟨State.takeUp_none h, fun before o after => State.takeUp_first h⟩⟩
  case replan =>
    intro e u wanted
    have hwanted : ∀ o l, (o.state.closed = false ∧ l.wantsReplan cause = true) ↔ wanted o l := by
      intro o l
      rw [← Bool.not_eq_true, o.state.closed_iff, not_or, l.wantsReplan_iff, and_assoc]
    unfold e
    rw [exec_replan]
    refine ⟨fun h => event_gives hs (State.replan_same (s := u) fun o l ho hl => mt (hwanted o l).1 (h o l ho hl)),
      fun o l ho hl hw => ?_⟩
    obtain ⟨hc, hwants⟩ := (hwanted o l).2 hw
    have hreplan := State.replan_wanted (s := u) ho hl hc hwants
    have hnumber : l.number = n := State.findLine_number (State.findLine_of ho hl)
    refine ⟨fun h => event_gives hs ?_, fun h => ?_⟩
    · have hplain : l.searches = false := Bool.eq_false_iff.2 fun hl => l.searches_iff.1 hl h
      rw [hreplan, Line.replanRequests_plain hplain, hnumber]
      rfl
    · intro asked
      have hsearches : l.searches = true := by
        refine l.searches_iff.2 ?_
        rcases h with h | ⟨h, hf⟩
        · rw [h]; simp
        · rw [h, hf]; simp
      refine event_gives hs ?_
      rw [hreplan, Line.replanRequests_searching hsearches, hnumber]
      rfl
  case wakeUp =>
    rw [exec_wakeUp]
    refine event_gives hs ?_
    rw [State.wakeUp, State.waitingLines, List.map_flatMap]
    refine congrArg (s.take (.wakeUp a)).hand (congrArg (fun f => s.planner.orders.flatMap f) (funext fun o => ?_))
    rw [List.map_map]
    refine congrArg (List.map _) (List.filter_congr fun l _ => ?_)
    rw [Bool.decide_and]
  case expiry =>
    intro e
    unfold e
    rw [exec_waitTimerExpiry]
    exact ⟨fun h => event_gives hs (State.waitExpiry_same (s := s.take _) h),
      fun o l ho hl hw => event_gives hs (State.waitExpiry_running (s := s.take _) ho hl hw)⟩

end Sys2Proof.Machine

/-!
# The family of the lanes' events and the audit: O57, O58, O59, O60

An arrival is decided by the entries the lanes expect; a gate report by the positions compared, each by the tag its
slot is judged by and the tag seen there.
-/

namespace Sys2Proof.Machine

/-! ## Arrivals (R109, R111) -/

theorem changeFirst_append {α : Type} {p : α → Bool} (f : α → α) {first rest : List α} {x : α}
    (hf : ∀ y ∈ first, p y = false) (hx : p x = true) :
    changeFirst p f (first ++ x :: rest) = first ++ f x :: rest := by
  induction first with
  | nil => exact if_pos hx
  | cons y first ih =>
    rw [List.cons_append, changeFirst, if_neg (by rw [hf y List.mem_cons_self]; exact Bool.false_ne_true),
      ih fun z hz => hf z (List.mem_cons_of_mem y hz)]
    rfl

theorem Entry.awaits_iff (tag : Nat) (e : Entry) :
    e.awaits tag = true ↔ e.tag = tag ∧ (e.state = .inTransit ∨ e.state = .lost) := by
  simp only [Entry.awaits, Entry.unsettled, Bool.and_eq_true, Bool.or_eq_true, decide_eq_true_eq]

section
variable {s : State} {j tag : Nat}

theorem State.arrival_noLane (h : 23 < j) : s.arrival j tag = s := if_pos h

theorem State.arrival_awaited (hj : j ≤ 23) {before after : List Entry} {x : Entry}
    (hl : (s.lane j).expected = before ++ x :: after) (hb : ∀ y ∈ before, y.awaits tag = false)
    (hx : x.awaits tag = true) : s.arrival j tag = s.settleArrival j x := by
  have hfind : (s.lane j).expected.find? (Entry.awaits tag) = some x :=
    List.find?_eq_some_iff_append.2 ⟨hx, before, after, hl, fun y hy => by rw [hb y hy]; rfl⟩
  rw [State.arrival, if_neg (Nat.not_lt.2 hj), hfind]

/-- The lane in which the earliest entry for a tag settles. -/
theorem State.settled_lane {before after : List Entry} {x : Entry} (hl : (s.lane j).expected = before ++ x :: after)
    (hb : ∀ y ∈ before, y.awaits tag = false) (hx : x.awaits tag = true) :
    s.onLane j (fun l => { l with expected := changeFirst (Entry.awaits x.tag) Entry.settles l.expected })
      = s.onLane j (fun l => { l with expected := before ++ x.settles :: after }) := by
  have htag : x.tag = tag := ((x.awaits_iff tag).1 hx).1
  unfold State.onLane
  dsimp only
  rw [hl, htag, changeFirst_append Entry.settles hb hx]

theorem State.arrival_unawaited (hj : j ≤ 23) (h : ∀ x ∈ (s.lane j).expected, x.awaits tag = false) :
    s.arrival j tag = if ∃ x ∈ (s.lane j).expected, x.tag = tag then s else s.foreignArrival j tag := by
  have hfind : (s.lane j).expected.find? (Entry.awaits tag) = none :=
    List.find?_eq_none.2 fun x hx => by rw [h x hx]; exact Bool.false_ne_true
  rw [State.arrival, if_neg (Nat.not_lt.2 hj), hfind]
  simp only [List.any_eq_true, decide_eq_true_eq]

theorem State.expectingLane_eq (other : Option Nat)
    (hsome : ∀ i, other = some i → i ≤ 23 ∧ (∃ x ∈ (s.lane i).expected, x.awaits tag = true)
      ∧ ∀ h < i, ∀ x ∈ (s.lane h).expected, ¬x.awaits tag = true)
    (hnone : other = none → ∀ h ≤ 23, ∀ x ∈ (s.lane h).expected, ¬x.awaits tag = true) :
    s.expectingLane tag = other := by
  cases other with
  | some i =>
    obtain ⟨hi, hx, hlow⟩ := hsome i rfl
    refine (find_laneNumbers _ i).2 ⟨by omega, List.any_eq_true.2 hx, fun h hh => ?_⟩
    rw [← Bool.not_eq_true, List.any_eq_true]
    rintro ⟨x, hx, ha⟩
    exact hlow h hh x hx ha
  | none =>
    refine List.find?_eq_none.2 fun h hh ha => ?_
    obtain ⟨x, hx, ha⟩ := List.any_eq_true.1 ha
    exact hnone rfl h (by have := List.mem_range.1 hh; omega) x hx ha

/-! ## Losses and emptying (R110, R115) -/

theorem State.transitExpiry_same {i : Nat}
    (h : ∀ x, (s.lane j).expected[i]? = some x → x.state ≠ .inTransit ∨ x.timer = none) : s.transitExpiry j i = s := by
  unfold State.transitExpiry
  split
  · rfl
  next x hx =>
    refine if_neg ?_
    rintro ⟨hs, ht⟩
    rcases h x hx with h | h
    · exact h hs
    · rw [h] at ht; cases ht

theorem State.transitExpiry_lost {i : Nat} {x : Entry} (hx : (s.lane j).expected[i]? = some x)
    (hs : x.state = .inTransit) (ht : x.timer ≠ none) : s.transitExpiry j i = s.loseEntry j i x := by
  simp only [State.transitExpiry, hx]
  exact if_pos ⟨hs, Option.isSome_iff_ne_none.2 ht⟩

end

/-- Settles O57: an arrival by the entries expected, a loss by its entry, an OPENING lane emptied or failed. -/
theorem laneEventsAreTaken : Obligations.LaneEventsAreTaken := by
  refine fun s hs => ⟨fun j tag => ?arrive, fun j i => ?transit, fun j => ?empty, fun j => ?failed⟩
  case arrive =>
    intro e u l awaits
    have hawaits : ∀ x : Entry, x.awaits tag = true ↔ awaits x := fun x => x.awaits_iff tag
    have hnot : ∀ x : Entry, x.awaits tag = false ↔ ¬awaits x := fun x => by rw [← hawaits, Bool.not_eq_true]
    unfold e
    rw [exec_arrive]
    refine ⟨fun h => event_gives hs (State.arrival_noLane h), fun before x after hj hl hb hx => ?settles,
      fun hj hn hk => event_gives hs ?known, fun other hj hn hsome hnone => event_gives hs ?foreign⟩
    case settles =>
      intro settled told
      have hfalse : ∀ y ∈ before, y.awaits tag = false := fun y hy => (hnot y).2 (hb y hy)
      have harrival := State.arrival_awaited (s := u) hj hl hfalse ((hawaits x).2 hx)
      refine event_gives hs (harrival.trans ?_)
      rw [State.settleArrival, State.settled_lane (s := u) hl hfalse ((hawaits x).2 hx), hx.1]
      rfl
    case known => exact (State.arrival_unawaited (s := u) hj fun x hx => (hnot x).2 (hn x hx)).trans (if_pos hk)
    case foreign =>
      have hunawaited := State.arrival_unawaited (s := u) (tag := tag) hj
        fun x hx => (hnot x).2 fun ha => hn x hx ha.1
      have hexpecting : u.expectingLane tag = other := by
        refine State.expectingLane_eq other (fun i hi => ?_) fun ho h hh x hx => mt (hawaits x).1 (hnone ho h hh x hx)
        obtain ⟨hi23, ⟨x, hx, ha⟩, hlow⟩ := hsome i hi
        exact ⟨hi23, ⟨x, hx, (hawaits x).2 ha⟩, fun h hh y hy => mt (hawaits y).1 (hlow h hh y hy)⟩
      refine hunawaited.trans ((if_neg ?_).trans ?_)
      · rintro ⟨x, hx, ht⟩
        exact hn x hx ht
      · rw [State.foreignArrival, hexpecting]
        simp only [saturate_eq_min]
  case transit =>
    intro e
    unfold e
    rw [exec_transitTimerExpiry]
    refine ⟨fun h => event_gives hs (State.transitExpiry_same (s := s.take _) h), fun x hx hst ht => ?_⟩
    intro lost source
    have hsource : ((s.findOrder x.order).map Order.source).getD 0 = source := by
      unfold source
      cases s.findOrder x.order <;> rfl
    refine event_gives hs ((State.transitExpiry_lost (s := s.take _) hx hst ht).trans ?_)
    rw [← hsource]
    rfl
  case empty =>
    intro e l count
    unfold e
    rw [exec_laneEmpty]
    exact ⟨fun h => event_gives hs (if_neg h), fun h => event_gives hs (if_pos h)⟩
  case failed =>
    intro e l fit failed
    have hfit : (s.take e).laneFit j = true ↔ fit := (s.take e).laneFit_iff j
    unfold failed
    unfold e at hfit ⊢
    rw [exec_returnedLaneOpen]
    refine ⟨fun h => event_gives hs (if_neg h), fun h hf => event_gives hs ((if_pos h).trans ?_),
      fun h hf => event_gives hs ((if_pos h).trans ?_)⟩
    · rw [if_pos (hfit.2 hf)]
    · rw [if_neg (mt hfit.1 hf)]

/-! ## Which reports are judged (R120), streaks and certification (R128, R129) -/

section
variable {s : State} {k c : Nat}

theorem Port.presents_iff (p : Port) (c : Nat) :
    p.presents c = true ↔ ∃ x, p.work = .presenting x ∧ x.carrier = c := by
  unfold Port.presents
  cases p.work <;> simp

theorem State.modeJudges_iff (s : State) (k c : Nat) : s.modeJudges k c = true ↔
    ((s.auditRecord k).mode = .continuous ∧ (s.auditRecord k).enabled.getLsbD ((s.carousel k).zone c) = true)
      ∨ ((s.auditRecord k).mode = .zoneCycle ∧ (s.auditRecord k).cursor = some ((s.carousel k).zone c)) := by
  unfold State.modeJudges
  dsimp only
  cases (s.auditRecord k).mode <;> simp

theorem State.judged_iff (s : State) (k c : Nat) : s.judged k c = true ↔
    c < (s.carousel k).carriers ∧ (s.carousel k).state ≠ .offline
      ∧ (((s.auditRecord k).mode = .continuous ∧ (s.auditRecord k).enabled.getLsbD ((s.carousel k).zone c) = true)
        ∨ ((s.auditRecord k).mode = .zoneCycle ∧ (s.auditRecord k).cursor = some ((s.carousel k).zone c)))
      ∧ ∀ x, (s.port k).work = .presenting x → x.carrier ≠ c := by
  have hport : (!(s.port k).presents c) = true ↔ ∀ x, (s.port k).work = .presenting x → x.carrier ≠ c := by
    rw [Bool.not_eq_true', ← Bool.not_eq_true, Port.presents_iff]
    exact ⟨fun h x hw hc => h ⟨x, hw, hc⟩, fun h ⟨x, hw, hc⟩ => h x hw hc⟩
  rw [State.judged, Bool.and_eq_true, hport, Bool.and_eq_true, Bool.and_eq_true, decide_eq_true_eq, decide_eq_true_eq,
    State.modeJudges_iff, and_assoc, and_assoc]

theorem Judgement.settle_found {g : Judgement} (h : g.found = true ∨ g.doubtful = true) : g.settle k c = g.state :=
  if_pos (by rwa [Bool.or_eq_true])

theorem Judgement.settle_clean {g : Judgement} (hf : g.found = false) (hd : g.doubtful = false) :
    g.settle k c = g.state.onAudit k (fun a => { a with
      streaks := sparseSet 0 c (min 4 (a.streak c + 1)) a.streaks }) := by
  rw [Judgement.settle, hf, hd]
  simp only [saturate_eq_min]
  rfl

theorem State.zoneCertified_iff (s : State) (k z : Nat) : s.zoneCertified k z = true ↔
    ∀ x, x < (s.carousel k).carriers ∧ (s.carousel k).zone x = z →
      (s.auditRecord k).quota ≤ (s.auditRecord k).streak x := by
  simp only [State.zoneCertified, List.all_eq_true, decide_eq_true_eq, Carousel.mem_zoneCarriers]

theorem State.certify_certified {z : Nat} (hm : (s.auditRecord k).mode = .zoneCycle)
    (hc : (s.auditRecord k).cursor = some z) (h : s.zoneCertified k z = true) :
    s.certify k = (s.notify (.auditZoneCertified k z ((s.auditRecord k).count z)
      ((s.carousel k).zoneCarriers z).length)).enterZone k (s.zoneAfter k z) := by
  simp only [State.certify, hm, hc, h, if_true]

theorem State.certify_uncertified {z : Nat} (hc : (s.auditRecord k).cursor = some z)
    (h : ¬s.zoneCertified k z = true) : s.certify k = s := by
  unfold State.certify
  rw [hc]
  cases (s.auditRecord k).mode with
  | zoneCycle => exact if_neg h
  | _ => rfl

theorem State.certify_idle (h : (s.auditRecord k).mode ≠ .zoneCycle ∨ (s.auditRecord k).cursor = none) :
    s.certify k = s := by
  unfold State.certify
  split
  next z hm hc =>
    rcases h with h | h
    · exact absurd hm h
    · rw [h] at hc; cases hc
  next => rfl

/-! ### The next active zone (R129) -/

variable {z y : Nat}

theorem State.zoneAfter_active (h : s.zoneAfter k z = some y) : s.zoneActive k y = true := by
  have hmem : y ∈ s.activeZones k := by
    unfold State.zoneAfter at h
    split at h
    next w hw => cases h; exact List.mem_of_find?_eq_some hw
    next => exact List.mem_of_head? h
  exact (List.mem_filter.1 hmem).2

theorem State.zoneAfter_above (hz : z < y) (hy : y < 16) (ha : s.zoneActive k y = true)
    (hlow : ∀ x, z < x → x < y → s.zoneActive k x = false) : s.zoneAfter k z = some y := by
  have hfind : (s.activeZones k).find? (fun y => z < y) = some y := by
    rw [State.activeZones, List.find?_filter, List.find?_range_eq_some]
    refine ⟨by simp [ha, hz], List.mem_range.2 hy, fun x hx => ?_⟩
    by_cases hzx : z < x
    · simp [hlow x hzx hx]
    · simp [hzx]
  rw [State.zoneAfter, hfind]

theorem State.zoneAfter_wraps (hy : y < 16) (ha : s.zoneActive k y = true)
    (hnone : ∀ x, x < 16 → z < x → s.zoneActive k x = false) (hlow : ∀ x < y, s.zoneActive k x = false) :
    s.zoneAfter k z = some y := by
  have hfind : (s.activeZones k).find? (fun y => z < y) = none := by
    refine List.find?_eq_none.2 fun x hx hzx => ?_
    obtain ⟨hx, hax⟩ := List.mem_filter.1 hx
    rw [hnone x (List.mem_range.1 hx) (of_decide_eq_true hzx)] at hax
    cases hax
  rw [State.zoneAfter, hfind]
  exact (State.lowestActive_iff _ _ _).2 ⟨hy, ha, hlow⟩

end

/-! ## Swap pairs (R121) -/

section
variable (tags : List Nat) (p : Nat)

/-- The tag seen at a position is seen at no other. -/
def seenOnce (x : Nat) : Prop := ∀ z < p, z ≠ x → observedTag tags z ≠ observedTag tags x

theorem duplicated_iff (x : Nat) : duplicated tags p x = true ↔
    observedTag tags x ≠ none ∧ ∃ y < p, y ≠ x ∧ observedTag tags y = observedTag tags x := by
  unfold duplicated
  cases h : observedTag tags x with
  | none => simp
  | some t => simp [List.any_eq_true]

theorem not_duplicated_iff {x : Nat} (h : observedTag tags x ≠ none) :
    (!duplicated tags p x) = true ↔ seenOnce tags p x := by
  rw [Bool.not_eq_true', ← Bool.not_eq_true, duplicated_iff]
  exact ⟨fun hn z hz hzx he => hn ⟨h, z, hz, hzx, he⟩, fun ho ⟨_, z, hz, hzx, he⟩ => ho z hz hzx he⟩

end

theorem Content.judgedTag_iff (x : Content) (tag : Nat) : x.judgedTag = some tag ↔
    ∃ t, t.tag = tag ∧ (x = .stored t ∨ ∃ o n, x = .reserved t o n) := by
  cases x <;> simp [Content.judgedTag, eq_comm]

/-- Two positions form a swap pair: each one's tag was seen at the other (R121). -/
theorem State.swapPair_iff (s : State) (tags : List Nat) (k c p x y : Nat) : s.swapPair tags k c p x y = true ↔
    x ≠ y ∧ (∃ a b, (s.slot (slotIndex k c x)).content.judgedTag = some a
        ∧ (s.slot (slotIndex k c y)).content.judgedTag = some b
        ∧ observedTag tags x = some b ∧ observedTag tags y = some a)
      ∧ (s.slot (slotIndex k c x)).fresh = false ∧ (s.slot (slotIndex k c y)).fresh = false
      ∧ seenOnce tags p x ∧ seenOnce tags p y := by
  simp only [State.swapPair, Bool.and_eq_true, decide_eq_true_eq, Option.isSome_iff_exists, and_assoc]
  constructor
  · rintro ⟨hxy, ⟨a, ha⟩, ⟨b, hb⟩, hx, hy, hfx, hfy, hdx, hdy⟩
    rw [hb] at hx
    rw [ha] at hy
    exact ⟨hxy, ⟨a, b, ha, hb, hx, hy⟩, Bool.not_eq_true' _ ▸ hfx, Bool.not_eq_true' _ ▸ hfy,
      (not_duplicated_iff tags p (by rw [hx]; simp)).1 hdx, (not_duplicated_iff tags p (by rw [hy]; simp)).1 hdy⟩
  · rintro ⟨hxy, ⟨a, b, ha, hb, hx, hy⟩, hfx, hfy, hox, hoy⟩
    rw [ha, hb]
    exact ⟨hxy, ⟨a, rfl⟩, ⟨b, rfl⟩, hx, hy, by rw [hfx]; rfl, by rw [hfy]; rfl,
      (not_duplicated_iff tags p (by rw [hx]; simp)).2 hox, (not_duplicated_iff tags p (by rw [hy]; simp)).2 hoy⟩

theorem State.swapPartner_iff (s : State) (tags : List Nat) (k c p x y : Nat) :
    s.swapPartner tags k c p x = some y ↔ (y < p ∧ s.swapPair tags k c p x y = true)
      ∧ ∀ z < y, ¬(z < p ∧ s.swapPair tags k c p x z = true) := by
  rw [State.swapPartner, List.find?_range_eq_some, List.mem_range]
  constructor
  · rintro ⟨hs, hp, hlow⟩
    exact ⟨⟨hp, hs⟩, fun z hz ⟨_, hsz⟩ => by have := hlow z hz; rw [hsz] at this; cases this⟩
  · rintro ⟨⟨hp, hs⟩, hlow⟩
    refine ⟨hs, hp, fun z hz => ?_⟩
    rw [Bool.not_eq_true', ← Bool.not_eq_true]
    exact fun hsz => hlow z hz ⟨hz.trans hp, hsz⟩

theorem State.swapPartner_none_iff (s : State) (tags : List Nat) (k c p x : Nat) :
    s.swapPartner tags k c p x = none ↔ ∀ y, ¬(y < p ∧ s.swapPair tags k c p x y = true) := by
  rw [State.swapPartner, List.find?_eq_none]
  simp only [List.mem_range, not_and]

/-- Settles O58: which reports are judged and to what end, the certification of a zone, and swap pairs. -/
theorem gateReportsAreJudged : Obligations.GateReportsAreJudged := by
  refine ⟨⟨fun s k c tags hs => ?gate, fun s k => ?certified⟩, fun s tags k c p x => ?pairs⟩
  case gate =>
    intro e a z p u judged
    have hjudged : (s.take e).judged k c = true ↔ judged := (s.take e).judged_iff k c
    have hu : (s.take e).onAudit k (fun a => { a with reports := saturate 65535 a.reports }) = u := by
      simp only [saturate_eq_min]
      rfl
    have hgate : (s.take e).gateReport k c tags = if (s.take e).judged k c then u.judge k c tags else u := by
      rw [State.gateReport, hu]
    unfold e
    rw [exec_gate]
    refine ⟨fun h => event_gives hs (hgate.trans (if_neg (mt hjudged.1 h))), fun h => ?_⟩
    intro g
    have hjudge : (s.take e).gateReport k c tags = (g.settle k c).certify k := hgate.trans (if_pos (hjudged.2 h))
    clear_value g
    refine ⟨fun hg => event_gives hs (hjudge.trans ?_), fun hf hd => event_gives hs (hjudge.trans ?_)⟩
    · rw [Judgement.settle_found hg]
    · rw [Judgement.settle_clean hf hd]
  case certified =>
    intro a inZone
    refine ⟨fun z hm hc h => State.certify_certified hm hc ((s.zoneCertified_iff k z).2 h), fun z x hc hz hq => ?_,
      State.certify_idle, fun z => ⟨fun y => State.zoneAfter_active, fun y => State.zoneAfter_above,
        fun y => State.zoneAfter_wraps⟩⟩
    exact State.certify_uncertified hc fun h => absurd hq (Nat.not_lt.2 ((s.zoneCertified_iff k z).1 h x hz))
  case pairs =>
    intro slot seen records once pair
    have hpair : ∀ y, (y < p ∧ s.swapPair tags k c p x y = true) ↔ pair y := by
      intro y
      rw [State.swapPair_iff]
      simp only [Content.judgedTag_iff]
      exact Iff.rfl
    simp only [← hpair]
    exact ⟨s.swapPartner_iff tags k c p x, s.swapPartner_none_iff tags k c p x⟩

end Sys2Proof.Machine

/-!
# The family of the audit's comparisons: O59, O60

A position is compared by its verdict; the holds and moves that a verdict or a swap pair carries out are stated by
the content of the slots concerned.
-/

namespace Sys2Proof.Machine

/-! ## The verdict on a position (R123) -/

section
variable {s : State} {i : Nat} {o : Option Nat}

theorem State.elsewhere_iff (s : State) (i : Nat) (o : Option Nat) (v : Nat) :
    s.elsewhere i o = some v ↔ ∃ tag, o = some tag ∧ s.tagElsewhere tag i = some v := by
  cases o <;> simp [State.elsewhere]

/-- The verdict on a slot that is not HELD. -/
theorem State.verdict_unheld (h : ∀ x, (s.slot i).content ≠ .held x) : s.verdict i o =
    if o = (s.slot i).content.judgedTag then .agreement
    else (s.elsewhere i o).elim (if (s.slot i).content.judgedTag.isSome then .missing else .unexpected) .foreign := by
  unfold State.verdict
  split
  next x hx => exact absurd hx (h x)
  next => cases s.elsewhere i o <;> rfl

/-- The verdict on a HELD slot. -/
theorem State.verdict_held {x : Hold} (h : (s.slot i).content = .held x) :
    s.verdict i o = (s.elsewhere i o).elim .agreement .foreign := by
  simp only [State.verdict, h]
  cases s.elsewhere i o <;> rfl

theorem State.verdict_foreign {v : Nat} (h : (∃ x, (s.slot i).content = .held x) ∨ o ≠ (s.slot i).content.judgedTag)
    (hv : s.elsewhere i o = some v) : s.verdict i o = .foreign v := by
  by_cases hh : ∃ x, (s.slot i).content = .held x
  · obtain ⟨x, hx⟩ := hh
    rw [State.verdict_held hx, hv]
    rfl
  · rw [State.verdict_unheld (not_exists.1 hh), if_neg (h.resolve_left hh), hv]
    rfl

end

/-! ## The comparison of a position (R121, R122, R124, R126) -/

section
variable (s : State) (tags : List Nat) (p : Nat)

theorem observedTag_ne_none {x : Nat} : observedTag tags x ≠ none ↔ tags.getD x 0 ≠ 0 := by
  unfold observedTag
  dsimp only
  split
  next h => exact ⟨fun hn => absurd rfl hn, fun hn => absurd h hn⟩
  next h => exact ⟨fun _ => h, fun _ => Option.some_ne_none _⟩

/-- Where a tag was seen, the same tag was seen exactly where the same entry was read. -/
theorem observedTag_eq_iff {x : Nat} (h : observedTag tags x ≠ none) (y : Nat) :
    observedTag tags y = observedTag tags x ↔ tags.getD y 0 = tags.getD x 0 := by
  rw [observedTag_ne_none] at h
  unfold observedTag
  dsimp only
  rw [if_neg h]
  split
  next hy =>
    rw [hy]
    exact ⟨fun he => absurd he.symm (Option.some_ne_none _), fun he => absurd he.symm h⟩
  next => exact Option.some_inj

theorem State.freshConcern_iff (i : Nat) (v : Verdict) : s.freshConcern i v = true ↔
    ((v = .missing ∨ v = .unexpected) ∧ (s.slot i).fresh = true)
      ∨ ∃ w, v = .foreign w ∧ ((s.slot i).fresh = true ∨ (s.slot w).fresh = true) := by
  cases v <;> simp [State.freshConcern]

end

section
variable {g : Judgement} {tags : List Nat} {k c p x : Nat} {pairs : Nat → Option Nat}

theorem Judgement.position_paired {y : Nat} (h : pairs x = some y) : g.position pairs tags k c p x =
    if x < y then ⟨g.state.carrySwap k c x y, true, g.doubtful⟩ else g := by
  simp only [Judgement.position, h]

theorem Judgement.position_single (h : pairs x = none) :
    g.position pairs tags k c p x = g.compare tags k c p x := by
  simp only [Judgement.position, h]

theorem Judgement.compare_unsettled (h : duplicated tags p x = true
      ∨ g.state.freshConcern (slotIndex k c x) (g.state.verdict (slotIndex k c x) (observedTag tags x)) = true) :
    g.compare tags k c p x = ⟨g.state.clearFresh (slotIndex k c x), g.found, true⟩ := by
  rw [Judgement.compare, if_pos (by rwa [Bool.or_eq_true])]

theorem Judgement.compare_settled (h : ¬(duplicated tags p x = true
      ∨ g.state.freshConcern (slotIndex k c x) (g.state.verdict (slotIndex k c x) (observedTag tags x)) = true))
    {v : Verdict} (hv : g.state.verdict (slotIndex k c x) (observedTag tags x) = v) :
    g.compare tags k c p x = ⟨(g.state.clearFresh (slotIndex k c x)).carryVerdict k c (slotIndex k c x)
      (observedTag tags x) v, g.found || v ≠ .agreement, g.doubtful⟩ := by
  rw [Judgement.compare, if_neg (by rwa [Bool.or_eq_true]), hv]

end

theorem State.discrepancy_eq (s : State) (k c i : Nat) (kind : Finding) (e o v : Option Nat) :
    s.discrepancy k c i kind e o v = (s.logFinding i kind e o v).onAudit k (fun a => { a with
      counts := sparseSet 0 ((s.carousel k).zone c) (min 255 (a.count ((s.carousel k).zone c) + 1)) a.counts,
      streaks := sparseErase c a.streaks }) := by
  simp only [State.discrepancy, saturate_eq_min]

/-- Settles O59: a position paired, unsettled, or compared by its verdict; the verdict; a discrepancy's counts. -/
theorem positionsAreCompared : Obligations.PositionsAreCompared := by
  refine ⟨fun g tags k c p x pairs => ?position, fun s i o => ?verdict, State.discrepancy_eq⟩
  case position =>
    intro i s o twice t verdict fresh
    have hunsettled : (duplicated tags p x = true ∨ s.freshConcern i verdict = true) ↔ twice ∨ fresh := by
      refine or_congr ?_ (s.freshConcern_iff i verdict)
      rw [duplicated_iff]
      exact and_congr_right fun ho => exists_congr fun y => and_congr_right fun _ => and_congr_right fun _ =>
        observedTag_eq_iff tags ho y
    have hcontent : (t.slot i).content = (s.slot i).content := s.clearFresh_content i i
    refine ⟨fun y hy => ⟨fun h => ?_, fun h => ?_⟩, fun hn => ⟨fun h => ?_, fun h => ?_⟩⟩
    · rw [Judgement.position_paired hy, if_pos h]
    · rw [Judgement.position_paired hy, if_neg (Nat.not_lt.2 h)]
    · rw [Judgement.position_single hn]
      exact Judgement.compare_unsettled (hunsettled.2 h)
    · have hsettled : ∀ v, verdict = v → g.position pairs tags k c p x =
          ⟨t.carryVerdict k c i o v, g.found || v ≠ .agreement, g.doubtful⟩ := fun v hv =>
        (Judgement.position_single hn).trans (Judgement.compare_settled (mt hunsettled.1 h) hv)
      refine ⟨fun hv => ?_, fun hv => ?_, fun hv => ?_, fun v hv => ?_⟩
      · rw [hsettled _ hv, State.carryVerdict]
        simp
      · rw [hsettled _ hv, State.carryVerdict, hcontent]
        simp
      · rw [hsettled _ hv, State.carryVerdict]
        simp
      · rw [hsettled _ hv, State.carryVerdict, hcontent]
        simp
  case verdict =>
    intro x held recorded elsewhere
    have hrecorded : recorded = x.judgedTag := by
      unfold recorded
      cases x <;> rfl
    have helsewhere : ∀ v, s.elsewhere i o = some v ↔ elsewhere v := s.elsewhere_iff i o
    have hnowhere : (∀ v, ¬elsewhere v) → s.elsewhere i o = none := fun h =>
      Option.eq_none_iff_forall_ne_some.2 fun v hv => h v ((helsewhere v).1 hv)
    rw [hrecorded]
    refine ⟨fun hh he => ?_, fun v hh hv => State.verdict_foreign hh ((helsewhere v).2 hv), fun hh hn => ?_,
      fun hh he hn hr => ?_, fun hh he hn hr => ?_⟩
    · rw [State.verdict_unheld (not_exists.1 hh), if_pos he]
    · obtain ⟨y, hy⟩ := hh
      rw [State.verdict_held hy, hnowhere hn]
      rfl
    · rw [State.verdict_unheld (not_exists.1 hh), if_neg he, hnowhere hn]
      exact if_pos (Option.isSome_iff_ne_none.2 hr)
    · rw [State.verdict_unheld (not_exists.1 hh), if_neg he, hnowhere hn]
      exact if_neg (by rw [hr]; exact Bool.false_ne_true)

/-! ## Holds and moves (R18, R21 to R23) -/

section
variable {s : State} {i : Nat}

theorem State.cancelReservation_reserved {t : Tyre} {o n : Nat} (h : (s.slot i).content = .reserved t o n) :
    s.cancelReservation i = ((s.removeTask i).onLine o n (fun l => { l with
      members := l.members.filter (fun m => m.slot ≠ i) })).markLine o n none := by
  simp only [State.cancelReservation, h]
  rfl

theorem State.cancelReservation_other (h : ∀ t o n, (s.slot i).content ≠ .reserved t o n) :
    s.cancelReservation i = s := by
  unfold State.cancelReservation
  split
  next t o n ht => exact absurd ht (h t o n)
  all_goals rfl

theorem State.holds_of_judged {t : Tyre}
    (h : (s.slot i).content = .stored t ∨ ∃ o n, (s.slot i).content = .reserved t o n) :
    s.holdMissing i = (s.cancelReservation i).recontent i (.held (.missing t))
      ∧ s.holdSwapped i = (s.cancelReservation i).recontent i (.held (.swapped t)) := by
  rcases h with h | ⟨o, n, h⟩ <;> simp only [State.holdMissing, State.holdSwapped, h, and_self]

theorem State.holdUnexpected_empty {tag : Nat} (h : (s.slot i).content = .empty) :
    s.holdUnexpected i tag = s.recontent i (.held (.unexpected tag)) := by
  simp only [State.holdUnexpected, h]

theorem State.holdUnexpected_blocked {tag : Nat} (h : (s.slot i).content = .blocked) : s.holdUnexpected i tag = s := by
  simp only [State.holdUnexpected, h]

theorem State.holdUnexpected_inbound {k : CarouselNo} {tag : Nat} {t : Tyre} (h : (s.slot i).content = .inbound t)
    (hk : slotCarousel i = k) : s.holdUnexpected i tag =
      (s.recontent i (.held (.unexpected tag))).hand [.putawayWithdrawn k i] := by
  have hlt : slotCarousel i < 8 := by rw [hk]; exact k.isLt
  have hfin : (⟨slotCarousel i, hlt⟩ : CarouselNo) = k := Fin.ext hk
  simp only [State.holdUnexpected, h, dif_pos hlt, hfin]

theorem State.tellPort_inbound {k : CarouselNo} {f : CarouselNo → Instr} {t : Tyre}
    (h : (s.slot i).content = .inbound t) (hk : slotCarousel i = k) : s.tellPort i f = s.hand [f k] := by
  have hlt : slotCarousel i < 8 := by rw [hk]; exact k.isLt
  have hfin : (⟨slotCarousel i, hlt⟩ : CarouselNo) = k := Fin.ext hk
  simp only [State.tellPort, h, dif_pos hlt, hfin]

theorem State.tellPort_other {f : CarouselNo → Instr} (h : ∀ t, (s.slot i).content ≠ .inbound t) :
    s.tellPort i f = s := by
  unfold State.tellPort
  split
  next t ht => exact absurd ht (h t)
  all_goals rfl

theorem Content.vacated_inbound (t : Tyre) : (Content.inbound t).vacated = .empty := rfl

theorem Content.vacated_other {x : Content} (h : ∀ t, x ≠ .inbound t) : x.vacated = .held .vacated := by
  cases x with
  | inbound t => exact absurd rfl (h t)
  | _ => rfl

theorem Content.isStored_iff (x : Content) : x.isStored = true ↔ ∃ t, x = .stored t := by
  cases x <;> simp [Content.isStored]

end

/-! ## Replan marks (R43, R44) -/

section
variable {s : State} {o n : Nat} {x : Option Nat}

theorem ReplanMark.join_eq (old : Option ReplanMark) (x : Option Nat) :
    some (ReplanMark.join old x) = if old ≠ none ∧ x = none then old else some ⟨x⟩ := by
  cases old <;> cases x <;> simp [ReplanMark.join]

theorem State.markLine_missing (h : s.findLine o n = none) : s.markLine o n x = s := by
  simp only [State.markLine, h]

theorem State.markLine_first {l : Line} (h : s.findLine o n = some l) (hm : l.mark = none) : s.markLine o n x =
    (s.onLine o n (fun l => { l with mark := some (ReplanMark.join l.mark x) })).hand [.replan o n .mark] := by
  simp only [State.markLine, h, hm]

theorem State.markLine_again {l : Line} (h : s.findLine o n = some l) (hm : l.mark ≠ none) : s.markLine o n x =
    s.onLine o n (fun l => { l with mark := some (ReplanMark.join l.mark x) }) := by
  obtain ⟨m, hm⟩ := Option.ne_none_iff_exists'.1 hm
  simp only [State.markLine, h, hm]

end

theorem State.logFinding_eq (s : State) (i : Nat) (kind : Finding) (e o v : Option Nat) :
    let n := if 65535 ≤ s.audit.logCount then 1 else s.audit.logCount + 1
    s.logFinding i kind e o v = ({ s with audit := { s.audit with
        log := (if 128 ≤ s.audit.log.length then s.audit.log.drop 1 else s.audit.log) ++ [⟨n, i, kind, e, o, v⟩],
        logCount := n } } : State).notify (.auditDiscrepancy (i / 768) ⟨n, i, kind, e, o, v⟩) := rfl

/-- Settles O60: the holds, the exchange, the FOREIGN move, the log, the marks, and what a slot is judged by. -/
theorem auditHoldsAndMoves : Obligations.AuditHoldsAndMoves := by
  refine ⟨⟨fun s => ⟨fun i => ⟨fun t o n => State.cancelReservation_reserved, State.cancelReservation_other,
      fun t => State.holds_of_judged, fun tag => State.holdUnexpected_empty,
      fun k tag t => State.holdUnexpected_inbound, fun x => rfl⟩, fun k c x y => ?swap, fun t v o => ?foreign,
      fun i f => ⟨fun k x => State.tellPort_inbound, State.tellPort_other⟩, s.logFinding_eq, fun o n x => ?mark⟩,
    fun s i tag => State.holdUnexpected_blocked⟩,
    fun s i own o => ⟨fun h => by rw [h]; rfl, fun h => ?displaced⟩, fun t o n tag h g => ⟨rfl, rfl, rfl⟩⟩
  case swap =>
    intro i j
    refine ⟨fun tx ty ha hx hy => ?_, fun h => ?_⟩
    · have hexchange : s.exchange i j = (s.writeSlot i ⟨.stored ty, true⟩).writeSlot j ⟨.stored tx, true⟩ := by
        rw [State.exchange, hx, hy]; rfl
      have hswap : s.carrySwap k c x y = ((s.exchange i j).discrepancy k c i .corrected (s.slot i).content.judgedTag
          (s.slot j).content.judgedTag none).discrepancy k c j .corrected (s.slot j).content.judgedTag
            (s.slot i).content.judgedTag none := by
        refine if_pos ?_
        rw [Bool.and_eq_true, Bool.and_eq_true, Content.isStored_iff, Content.isStored_iff]
        exact ⟨⟨ha, tx, hx⟩, ty, hy⟩
      rw [hswap, hexchange, hx, hy]
      rfl
    · refine if_neg ?_
      rw [Bool.and_eq_true, Bool.and_eq_true, Content.isStored_iff, Content.isStored_iff]
      rintro ⟨⟨ha, tx, hx⟩, ty, hy⟩
      rcases h with h | h | h
      · rw [h] at ha; cases ha
      · exact h tx hx
      · exact h ty hy
  case foreign =>
    intro told cleared freed moved
    have hmove : s.foreignMove t v o = moved.recontent v (s.slot v).content.vacated := rfl
    refine ⟨fun h => ?_, fun x h => ?_⟩
    · rw [hmove, Content.vacated_other h]
    · rw [hmove, h, Content.vacated_inbound]
  case mark =>
    refine ⟨State.markLine_missing, fun l hl => ?_⟩
    intro marked
    have hmarked : s.onLine o n (fun l => { l with mark := some (ReplanMark.join l.mark x) }) = marked := by
      simp only [ReplanMark.join_eq]
      rfl
    rw [← hmarked]
    exact ⟨State.markLine_first hl, State.markLine_again hl⟩
  case displaced =>
    obtain ⟨t, ht⟩ := Option.ne_none_iff_exists'.1 h
    rw [ht]
    rfl

end Sys2Proof.Machine

/-!
# The family of the drive's and the curtain's reports: O41, O42, O43, O44

Each report is decided by the carousel's state, and the port or the audit told by the move it ends.
-/

namespace Sys2Proof.Machine

/-! ## The carrier at port (R62, R63) -/

theorem Carousel.notes_eq (now : Nat) (x : Carousel) : x.notes now = if x.state = .moving then { x with
    estimate :=
      if 2 ≤ x.positionsSeen then (7 * x.estimate + max 50 (min (now - x.lastPositionAt) 10000) + 4) / 8
      else x.estimate,
    positionsSeen := min 2 (x.positionsSeen + 1), lastPositionAt := now } else x := by
  simp only [Carousel.notes, Carousel.estimateAfter, saturate_eq_min, clamp_eq_max_min (show 50 ≤ 10000 by decide)]

section
variable {s : State} {k c : Nat}

theorem State.setAtPort_left {y : Nat} (hy : (s.port k).servedCarrier = some y)
    (h : (s.carousel k).atPort ≠ c ∧ c ≠ y) :
    s.setAtPort k c = (s.onCarousel k (fun x => { x with atPort := c })).carrierLeft k := by
  simp only [State.setAtPort, hy]
  exact if_pos h

theorem State.setAtPort_plain
    (h : ∀ y, (s.port k).servedCarrier = some y → (s.carousel k).atPort = c ∨ c = y) :
    s.setAtPort k c = s.onCarousel k (fun x => { x with atPort := c }) := by
  unfold State.setAtPort
  dsimp only
  split
  next y hy =>
    refine if_neg ?_
    rintro ⟨hc, hn⟩
    exact (h y hy).elim hc hn
  next => rfl

theorem State.positionReport_below (h : c < (s.carousel k).carriers) :
    s.positionReport k c = (s.onCarousel k (Carousel.notes s.now)).setAtPort k c := if_pos h

theorem State.positionReport_fault (h : (s.carousel k).carriers ≤ c)
    (hx : (s.carousel k).state = .standing ∨ (s.carousel k).state = .moving ∨ (s.carousel k).state = .interrupted
      ∨ (s.carousel k).state = .curtainWait) :
    s.positionReport k c = (s.onCarousel k (Carousel.notes s.now)).enterFault k .positionMismatch := by
  rw [State.positionReport, if_neg (Nat.not_lt.2 h)]
  rcases hx with hx | hx | hx | hx <;> rw [hx]

theorem State.positionReport_ignored (h : (s.carousel k).carriers ≤ c)
    (hx : ¬((s.carousel k).state = .standing ∨ (s.carousel k).state = .moving ∨ (s.carousel k).state = .interrupted
      ∨ (s.carousel k).state = .curtainWait)) : s.positionReport k c = s := by
  rw [State.positionReport, if_neg (Nat.not_lt.2 h)]
  cases hs : (s.carousel k).state <;> simp [hs] at hx ⊢

/-! ## ARRIVED (R65) -/

theorem State.arrivedReport_fault (h : (s.carousel k).carriers ≤ c)
    (hx : ((s.carousel k).state = .standing ∨ (s.carousel k).state = .interrupted
      ∨ (s.carousel k).state = .curtainWait) ∨ (s.carousel k).state = .moving) :
    s.arrivedReport k c = s.enterFault k .positionMismatch := by
  unfold State.arrivedReport
  rcases hx with (hx | hx | hx) | hx <;> simp only [hx, if_neg (Nat.not_lt.2 h)]

theorem State.arrivedReport_ignored (h : (s.carousel k).carriers ≤ c)
    (hx : ¬(((s.carousel k).state = .standing ∨ (s.carousel k).state = .interrupted
      ∨ (s.carousel k).state = .curtainWait) ∨ (s.carousel k).state = .moving)) : s.arrivedReport k c = s := by
  unfold State.arrivedReport
  simp only [if_neg (Nat.not_lt.2 h)]
  cases hs : (s.carousel k).state <;> simp [hs] at hx ⊢

theorem State.arrivedReport_moving {m : Move} (h : c < (s.carousel k).carriers) (hx : (s.carousel k).state = .moving)
    (hm : (s.carousel k).move = some m) : s.arrivedReport k c =
      if m.target = c then (s.setAtPort k c).completeMove k m
      else (s.setAtPort k c).enterFault k .positionMismatch := by
  simp only [State.arrivedReport, hx, if_pos h, State.arrivedMoving, hm]

theorem State.arrivedReport_plain (h : c < (s.carousel k).carriers)
    (hx : (s.carousel k).state ≠ .moving ∨ (s.carousel k).move = none) :
    s.arrivedReport k c = s.setAtPort k c := by
  unfold State.arrivedReport
  simp only [if_pos h]
  cases hs : (s.carousel k).state with
  | moving =>
    have hm : (s.carousel k).move = none := hx.resolve_left (not_not.2 hs)
    simp only [State.arrivedMoving, hm]
  | _ => rfl

end

/-- Settles O41: POSITION by the carrier and the carousel's state, and the port told of a carrier that leaves. -/
theorem positionsAreTaken : Obligations.PositionsAreTaken := by
  refine ⟨fun s k c hs => ?_, fun s k c => ?_⟩
  · intro e x running noted
    have hnoted : (s.take e).onCarousel k (Carousel.notes s.now) = noted :=
      congrArg ((s.take e).onCarousel k) (funext (Carousel.notes_eq s.now))
    rw [← hnoted]
    unfold e
    rw [exec_position]
    exact ⟨fun hc hr => event_gives hs (State.positionReport_fault (s := s.take _) hc hr),
      fun hc hr => event_gives hs (State.positionReport_ignored (s := s.take _) hc hr),
      fun hc => event_gives hs (State.positionReport_below (s := s.take _) hc)⟩
  · intro placed serves
    have hserves : ∀ y, (s.port k).servedCarrier = some y ↔ serves y := fun y => Port.servedCarrier_iff _ _
    exact ⟨fun y hy ha hn => State.setAtPort_left ((hserves y).2 hy) ⟨ha, hn⟩,
      fun h => State.setAtPort_plain fun y hy => h y ((hserves y).1 hy)⟩

/-- Settles O42: ARRIVED by the move under way, and the owner that a completed move tells. -/
theorem arrivalsCompleteMoves : Obligations.ArrivalsCompleteMoves := by
  refine ⟨fun s k c hs => ?_, fun s k m => ?_⟩
  · intro e x stopped t
    unfold t
    unfold e
    rw [exec_arrived]
    exact ⟨fun hc hr => event_gives hs (State.arrivedReport_fault (s := s.take _) hc hr),
      fun hc hr => event_gives hs (State.arrivedReport_ignored (s := s.take _) hc hr),
      fun hc h => event_gives hs (State.arrivedReport_plain (s := s.take _) hc h),
      fun m hc hm hx ht => event_gives hs ((State.arrivedReport_moving (s := s.take _) hc hm hx).trans (if_neg ht)),
      fun m hc hm hx ht => event_gives hs ((State.arrivedReport_moving (s := s.take _) hc hm hx).trans (if_pos ht))⟩
  · intro done told
    have htold : (s.endMove k).tellOwner k m = told := by
      unfold told State.tellOwner
      cases m.purpose <;> rfl
    rw [← htold]
    exact ⟨fun h => if_pos h, fun h => if_neg h⟩

/-! ## Faults and yields (R64, R68 to R70, R72) -/

section
variable {s : State} {k n : Nat}

theorem State.tellFailed_called {move : Option Move}
    (h : ∃ m, move = some m ∧ (m.purpose = .call ∨ m.purpose = .storeCall)) : s.tellFailed k move = s.callFailed k := by
  obtain ⟨⟨p, t, l⟩, rfl, hp⟩ := h
  rcases hp with hp | hp <;> cases hp <;> rfl

theorem State.tellFailed_other {move : Option Move}
    (h : ¬∃ m, move = some m ∧ (m.purpose = .call ∨ m.purpose = .storeCall)) : s.tellFailed k move = s := by
  cases move with
  | none => rfl
  | some m =>
    obtain ⟨p, t, l⟩ := m
    cases p with
    | call => exact absurd ⟨_, rfl, Or.inl rfl⟩ h
    | storeCall => exact absurd ⟨_, rfl, Or.inr rfl⟩ h
    | sweep => rfl
    | jog => rfl

theorem removedMove_eq (move : Option Move) : removedMove move = move.map (fun m => (m.purpose, m.target)) := by
  cases move <;> rfl

theorem State.faultReaches_running {cause : FaultCause} (h : (s.carousel k).state = .standing
      ∨ (s.carousel k).state = .moving ∨ (s.carousel k).state = .interrupted ∨ (s.carousel k).state = .curtainWait) :
    s.faultReaches k cause = s.enterFault k cause := by
  rcases h with h | h | h | h <;> simp only [State.faultReaches, h]

theorem State.faultReaches_fault {cause : FaultCause} (h : (s.carousel k).state = .fault) :
    s.faultReaches k cause = s.refault k cause := by
  simp only [State.faultReaches, h]

theorem State.faultReaches_idle {cause : FaultCause}
    (h : (s.carousel k).state = .offline ∨ (s.carousel k).state = .yielded) : s.faultReaches k cause = s := by
  rcases h with h | h <;> simp only [State.faultReaches, h]

/-- A carousel that has yielded, its drive's waiting telegram withdrawn (R72). -/
def State.yielded (s : State) (k : Nat) : State :=
  (s.onCarousel k (fun c => { c.timersStopped with state := .yielded, cause := none, move := none })).withdrawField
    (.drive k)

theorem State.yieldTo_working (h : ((s.carousel k).state = .standing ∨ (s.carousel k).state = .moving
      ∨ (s.carousel k).state = .interrupted ∨ (s.carousel k).state = .curtainWait) ∨ (s.carousel k).state = .fault) :
    s.yieldTo k n = ((s.yielded k).tellFailed k (s.carousel k).move).notify (.carouselYielded k n) := by
  rcases h with (h | h | h | h) | h <;> simp only [State.yieldTo, h] <;> rfl

theorem State.yieldTo_idle (h : (s.carousel k).state = .offline ∨ (s.carousel k).state = .yielded) :
    s.yieldTo k n = s := by
  rcases h with h | h <;> simp only [State.yieldTo, h]

/-- The carousel's record after DRIVE-STATUS (R69). -/
def State.driveReported (s : State) (k : Nat) (commander fault : Option Nat) : State :=
  s.onCarousel k (fun x => { x with lastCommander := commander, lastFault := fault, statusSinceFault := true })

variable {commander fault : Option Nat}

theorem State.driveReport_foreign (hn : commander = some n) (ha : n ≠ s.address) :
    s.driveReport k commander fault = (s.driveReported k commander fault).yieldTo k n := by
  subst hn
  have hforeign : s.foreignNode (some n) = some n := if_neg ha
  simp only [State.driveReport, hforeign]
  rfl

theorem State.foreignNode_own (h : commander = none ∨ commander = some s.address) : s.foreignNode commander = none := by
  rcases h with rfl | rfl
  · rfl
  · exact if_pos rfl

theorem State.driveReport_faulty (h : commander = none ∨ commander = some s.address) (hf : fault ≠ none) :
    s.driveReport k commander fault = (s.driveReported k commander fault).faultReaches k .driveFault := by
  obtain ⟨f, rfl⟩ := Option.ne_none_iff_exists'.1 hf
  simp only [State.driveReport, State.foreignNode_own h]
  rfl

theorem State.driveReport_sound (h : commander = none ∨ commander = some s.address) (hf : fault = none) :
    s.driveReport k commander fault = s.driveReported k commander fault := by
  subst hf
  simp only [State.driveReport, State.foreignNode_own h]
  rfl

theorem State.moveExpiry_same (h : (s.carousel k).moveTimer = none) : s.moveExpiry k = s := by
  simp only [State.moveExpiry, h]

theorem State.moveExpiry_running (h : (s.carousel k).moveTimer = some n) : s.moveExpiry k =
    (s.onCarousel k (fun x => { x with moveTimer := none })).faultReaches k .moveTimeout := by
  simp only [State.moveExpiry, h]

end

/-- Settles O43: the four causes and the two ways to yield, and what a FAULT entered, repeated or a yield does. -/
theorem faultsAndYields : Obligations.FaultsAndYields := by
  refine ⟨fun s k hs => ⟨fun commander fault => ?drive, fun n => ?foreign, ?returned, fun h => ?stopped,
    fun n h => ?running⟩, fun s k => ?effects⟩
  case drive =>
    intro e t
    unfold t
    unfold e
    rw [exec_driveStatus]
    exact ⟨fun n hn ha => event_gives hs (State.driveReport_foreign (s := s.take _) hn ha),
      fun h hf => event_gives hs (State.driveReport_faulty (s := s.take _) h hf),
      fun h hf => event_gives hs (State.driveReport_sound (s := s.take _) h hf)⟩
  case foreign => rw [exec_foreignMotionTelegram]; exact event_gives hs rfl
  case returned => rw [exec_returnedMotionTelegram]; exact event_gives hs rfl
  case stopped => rw [exec_moveTimerExpiry]; exact event_gives hs (State.moveExpiry_same (s := s.take _) h)
  case running => rw [exec_moveTimerExpiry]; exact event_gives hs (State.moveExpiry_running (s := s.take _) h)
  case effects =>
    intro x running called
    refine ⟨fun cause => ?entry, fun n => ?yield⟩
    case entry =>
      intro stopped notice
      have hfault : s.enterFault k cause = (stopped.tellFailed k x.move).notify notice := by
        unfold notice
        rw [← removedMove_eq]
        rfl
      refine ⟨⟨fun hc => ?_, fun hc => ?_⟩, State.faultReaches_running, State.faultReaches_fault,
        State.faultReaches_idle⟩
      · rw [hfault, State.tellFailed_called hc]
      · rw [hfault, State.tellFailed_other hc]
    case yield =>
      intro yielded
      have hyield : running ∨ x.state = .fault →
          s.yieldTo k n = (yielded.tellFailed k x.move).notify (.carouselYielded k n) := State.yieldTo_working
      refine ⟨fun h hc => ?_, fun h hc => ?_, State.yieldTo_idle⟩
      · rw [hyield h, State.tellFailed_called hc]
      · rw [hyield h, State.tellFailed_other hc]

/-! ## Move requests (R61, R64) -/

theorem motionCommand_eq (p : Purpose) (target : Nat) (leg : Leg) :
    motionCommand p target leg = if p = .jog then .jog leg else .move target leg := by
  cases p <;> rfl

section
variable {s : State} {k target : Nat} {p : Purpose} {leg : Leg}

/-- A leg started: the drive's telegram, and the timer by the step time (R64). -/
theorem State.startLeg_eq : s.startLeg k p target leg = (s.onCarousel k (fun x => { x with
    state := .moving, move := some ⟨p, target, some leg⟩,
    moveTimer := some (min 600000
      (leg.steps * (if x.overrideOn then x.overrideValue else x.estimate) * 3 / 2 + 2000)),
    positionsSeen := 0, lastPositionAt := 0 })).queueField (.drive k)
      (if p = .jog then .jog leg else .move target leg) := by
  rw [← motionCommand_eq]
  rfl

theorem State.moveRequest_standing (h : (s.carousel k).state = .standing) (hc : (s.carousel k).curtainBroken = false) :
    s.moveRequest k p target leg = s.startLeg k p target leg := by
  simp only [State.moveRequest, h, hc]
  rfl

theorem State.moveRequest_broken (h : (s.carousel k).state = .standing) (hc : (s.carousel k).curtainBroken = true) :
    s.moveRequest k p target leg =
      (s.setWaitingMove k p target).onCarousel k (fun x => { x with state := .curtainWait }) := by
  simp only [State.moveRequest, h, hc, if_true]

theorem State.moveRequest_moving (h : (s.carousel k).state = .moving) (hs : (s.carousel k).sweeping = true) :
    s.moveRequest k p target leg = s.startLeg k p target leg := by
  simp only [State.moveRequest, h, hs, if_true]

theorem State.moveRequest_waiting (h : (s.carousel k).state = .interrupted ∨ (s.carousel k).state = .curtainWait)
    (hs : (s.carousel k).sweeping = true) : s.moveRequest k p target leg = s.setWaitingMove k p target := by
  rcases h with h | h <;> simp only [State.moveRequest, h, hs, if_true]

theorem State.moveRequest_ignored (h : ((s.carousel k).state = .moving ∨ (s.carousel k).state = .interrupted
      ∨ (s.carousel k).state = .curtainWait) ∧ ¬(s.carousel k).sweeping = true ∨ (s.carousel k).state = .offline
      ∨ (s.carousel k).state = .fault ∨ (s.carousel k).state = .yielded) : s.moveRequest k p target leg = s := by
  rcases h with ⟨h | h | h, hs⟩ | h | h | h
  · simp only [State.moveRequest, h, if_neg hs]
  · simp only [State.moveRequest, h, if_neg hs]
  · simp only [State.moveRequest, h, if_neg hs]
  · simp only [State.moveRequest, h]
  · simp only [State.moveRequest, h]
  · simp only [State.moveRequest, h]

/-! ## The curtain and its dwell (R66, R67, R74) -/

theorem State.curtainReport_same {b : Bool} (h : (s.carousel k).curtainBroken = b) : s.curtainReport k b = s := if_pos h

theorem State.curtainReport_changed {b : Bool} (h : (s.carousel k).curtainBroken ≠ b) :
    s.curtainReport k b = s.curtainChanged k b := if_neg h

theorem State.curtainChanged_moving (h : (s.carousel k).state = .moving) : s.curtainChanged k true =
    ((s.onCarousel k (fun x => { x with curtainBroken := true })).queueField (.drive k) .stop).onCarousel k
      (fun x => { x with state := .interrupted, moveTimer := none }) := by
  simp only [State.curtainChanged, h]

theorem State.curtainChanged_waiting {b : Bool}
    (h : (s.carousel k).state = .interrupted ∨ (s.carousel k).state = .curtainWait) : s.curtainChanged k b =
      (s.onCarousel k (fun x => { x with curtainBroken := b })).onCarousel k (fun x => { x with
        dwellTimer := if b then none else some x.dwell }) := by
  rcases h with h | h <;> cases b <;> simp only [State.curtainChanged, h] <;> rfl

theorem State.curtainChanged_other {b : Bool} (h : (s.carousel k).state = .standing ∨ (s.carousel k).state = .offline
      ∨ (s.carousel k).state = .fault ∨ (s.carousel k).state = .yielded
      ∨ ((s.carousel k).state = .moving ∧ b = false)) :
    s.curtainChanged k b = s.onCarousel k (fun x => { x with curtainBroken := b }) := by
  rcases h with h | h | h | h | ⟨h, rfl⟩ <;> simp only [State.curtainChanged, h]

theorem State.dwellExpiry_same (h : (s.carousel k).dwellTimer = none) : s.dwellExpiry k = s := by
  simp only [State.dwellExpiry, h]

theorem State.dwellExpiry_idle (ht : (s.carousel k).dwellTimer ≠ none) (h : (s.carousel k).move = none
      ∨ ((s.carousel k).state ≠ .interrupted ∧ (s.carousel k).state ≠ .curtainWait)) :
    s.dwellExpiry k = s.onCarousel k (fun x => { x with dwellTimer := none }) := by
  obtain ⟨n, hn⟩ := Option.ne_none_iff_exists'.1 ht
  simp only [State.dwellExpiry, hn]
  split
  next m hi hm =>
    rcases h with h | ⟨h, _⟩
    · rw [h] at hm; cases hm
    · exact absurd hi h
  next m hi hm =>
    rcases h with h | ⟨_, h⟩
    · rw [h] at hm; cases hm
    · exact absurd hi h
  next => rfl

theorem State.dwellExpiry_resumes {m : Move} (ht : (s.carousel k).dwellTimer ≠ none) (hm : (s.carousel k).move = some m)
    (h : (s.carousel k).state = .interrupted ∨ (s.carousel k).state = .curtainWait) :
    s.dwellExpiry k = if ((s.carousel k).remaining m).steps = 0
      then (s.onCarousel k (fun x => { x with dwellTimer := none })).completeMove k m
      else (s.onCarousel k (fun x => { x with dwellTimer := none })).startLeg k m.purpose m.target
        ((s.carousel k).remaining m) := by
  obtain ⟨n, hn⟩ := Option.ne_none_iff_exists'.1 ht
  have hremaining : ((s.onCarousel k (fun x => { x with dwellTimer := none })).carousel k).remaining m
      = (s.carousel k).remaining m := by rw [State.onCarousel_same]; rfl
  rcases h with h | h <;> simp only [State.dwellExpiry, hn, h, hm, State.resumeMove, hremaining]

theorem State.sweepExpiry_same (h : (s.carousel k).sweepTimer = none) : s.sweepExpiry k = s := by
  simp only [State.sweepExpiry, h]

theorem State.sweepExpiry_running (h : (s.carousel k).sweepTimer ≠ none) : s.sweepExpiry k =
    (s.onCarousel k (fun x => { x with sweepTimer := none })).moveRequest k .sweep (s.carousel k).atPort
      ⟨.forward, (s.carousel k).carriers⟩ := by
  obtain ⟨n, hn⟩ := Option.ne_none_iff_exists'.1 h
  simp only [State.sweepExpiry, hn]
  rfl

end

/-- The travel to a carrier, the shorter way where the carousel turns both ways (R59). -/
theorem Carousel.travel_eq (x : Carousel) (target : Nat) :
    let df := forwardDistance x.carriers x.atPort target
    let db := (x.carriers - df) % x.carriers
    x.travel target = if x.bidirectional = true ∧ db < df then ⟨.backward, db⟩ else ⟨.forward, df⟩ := by
  intro df db
  simp only [Carousel.travel, Bool.and_eq_true, decide_eq_true_eq]
  rfl

/-- Settles O44: the curtain by the carousel's state, the dwell's end by the travel that remains, and requests. -/
theorem curtainStopsAndRequestsStartMoves : Obligations.CurtainStopsAndRequestsStartMoves := by
  refine ⟨fun s k hs => ?reports, fun s k hs => ?sweep, fun s k p target leg => ?request⟩
  case reports =>
    intro x
    refine ⟨fun b => ?curtain, ?dwell⟩
    case curtain =>
      intro e t
      unfold t
      unfold e
      rw [exec_curtain]
      refine ⟨fun h => event_gives hs (State.curtainReport_same (s := s.take _) h), fun h => ?_⟩
      have hchanged : (s.take (.curtain k b)).curtainReport k b = (s.take (.curtain k b)).curtainChanged k b :=
        State.curtainReport_changed h
      refine ⟨fun hm hb => ?_, fun hw => event_gives hs (hchanged.trans (State.curtainChanged_waiting hw)),
        fun ho => event_gives hs (hchanged.trans (State.curtainChanged_other ho))⟩
      subst hb
      exact event_gives hs (hchanged.trans (State.curtainChanged_moving hm))
    case dwell =>
      intro e t
      unfold t
      unfold e
      rw [exec_resumeDwellExpiry]
      refine ⟨fun h => event_gives hs (State.dwellExpiry_same (s := s.take _) h),
        fun ht h => event_gives hs (State.dwellExpiry_idle (s := s.take _) ht h), fun m ht hm h => ?_⟩
      intro df db taken leg
      have htaken : m.direction = taken := by
        unfold taken Move.direction
        cases m.leg <;> rfl
      have hleg : x.remaining m = leg := by
        unfold leg Carousel.remaining
        rw [htaken]
        cases m.purpose with
        | call => exact x.travel_eq m.target
        | storeCall => exact x.travel_eq m.target
        | sweep => rfl
        | jog => cases taken <;> rfl
      have hexpiry := State.dwellExpiry_resumes (s := s.take (.resumeDwellExpiry k)) ht hm h
      rw [show ((s.take (.resumeDwellExpiry k)).carousel k).remaining m = leg from hleg] at hexpiry
      exact ⟨fun h0 => event_gives hs (hexpiry.trans (if_pos h0)),
        fun h0 => event_gives hs ((hexpiry.trans (if_neg h0)).trans State.startLeg_eq)⟩
  case sweep =>
    intro e x
    unfold e
    rw [exec_idleSweepExpiry]
    exact ⟨fun h => event_gives hs (State.sweepExpiry_same (s := s.take _) h),
      fun h => event_gives hs (State.sweepExpiry_running (s := s.take _) h)⟩
  case request =>
    intro x sweeps started waits
    have hsweeps : x.sweeping = true ↔ sweeps := x.sweeping_iff
    have hstarted : s.startLeg k p target leg = started := State.startLeg_eq
    rw [← hstarted]
    refine ⟨State.moveRequest_standing, State.moveRequest_broken,
      fun h hp => State.moveRequest_moving h (hsweeps.2 hp), fun h hp => State.moveRequest_waiting h (hsweeps.2 hp),
      fun h => State.moveRequest_ignored (h.imp_left fun ⟨h, hp⟩ => ⟨h, mt hsweeps.1 hp⟩)⟩

end Sys2Proof.Machine
